-- ==== Sys2Proof/Word.lean ====
section
/-! DEFINITION. The words of the UT61E decoder core and the names of its ten modes
(spec/00_scope.md R7, R9, R12, R14). Every field is unsigned; bit 0 is the least significant bit. -/

namespace Sys2Proof

/-- One byte of the frame as captured, parity bit included (R7, R78). -/
abbrev Byte := BitVec 8

/-- One masked frame byte: bit 7 is gone (R104). -/
abbrev RawByte := BitVec 7

/-- A 4-bit field: a digit, a flag nibble, a mode code or a unit identifier (R7, R13). -/
abbrev Nibble := BitVec 4

/-- The unit index, 0 to 7 (R7, R71). -/
abbrev UnitIndex := BitVec 3

/-- The length port and its captured copy (R8 `LEN_W`). -/
abbrev Len := BitVec 16

/-- One word of the lookup table: [20] present, [19:16] unit_id, [15:0] scale (R30). -/
abbrev LutWord := BitVec 21

/-- An address of the lookup table, 0 to 127 (R30, R54). -/
abbrev LutAddr := BitVec 7

/-- The 14 bytes of a frame in capture order (R51, R70). -/
abbrev Frame := Vector Byte 14

/-- The masked raw array `raw[0..13]` (R104). -/
abbrev RawFrame := Vector RawByte 14

/-- The ten modes, in the document's order (R14). -/
inductive Mode where
  | voltage
  | currentA
  | currentMa
  | currentUa
  | resistance
  | frequency
  | capacitance
  | diode
  | continuity
  | duty
deriving DecidableEq, Repr

/-- All ten modes (R14, spec/90_conflicts.md C2). -/
def Mode.all : List Mode :=
  [.voltage, .currentA, .currentMa, .currentUa, .resistance, .frequency, .capacitance, .diode,
    .continuity, .duty]

end Sys2Proof
end

