-- ==== Sys2Proof/Machine/Lut.lean ====
section
/-! DEFINITION. The table space `T` as plain data (spec/10_state.md R30, R32; spec/20_memory.md R50, R55,
R60) and the parameters a model takes as arguments, with the check a `LUT_INIT` must pass
(spec/00_scope.md R8, spec/30_encoding.md R80, spec/42_mode_lut.md R149). -/

namespace Sys2Proof.Machine

/-- The table space: (address, word) pairs, addresses strictly rising, no pair holding the word an
unlisted address reads as. (Log entry 11: a word of this memory has 21 bits, not 8.) -/
abbrev Memory := List (Nat × LutWord)

/-- What an unlisted address reads as: the absent word, whose unit_id and scale are 0 (R149(d)). -/
def absentWord : LutWord := 0

/-- The number of words of `T` (R30). -/
def lutSize : Nat := 128

/-- The word at an address. -/
def Memory.read : Memory → Nat → LutWord
  | [], _ => absentWord
  | (b, w) :: m, a => if b = a then w else Memory.read m a

/-- Memory with one word written, in the canonical form. -/
def Memory.write : Memory → Nat → LutWord → Memory
  | [], a, w => if w = absentWord then [] else [(a, w)]
  | (b, v) :: m, a, w =>
    if a < b then (if w = absentWord then (b, v) :: m else (a, w) :: (b, v) :: m)
    else if a = b then (if w = absentWord then m else (a, w) :: m)
    else (b, v) :: Memory.write m a w

/-- The canonical form from a lowest address up: addresses strictly rising and inside `T`, no absent
word listed. -/
def Memory.wfFrom : Nat → Memory → Bool
  | _, [] => true
  | lo, (a, w) :: m =>
    decide (lo ≤ a) && decide (a < lutSize) && decide (w ≠ absentWord) && Memory.wfFrom (a + 1) m

/-- The canonical form of the table space. -/
def Memory.wf (m : Memory) : Bool := Memory.wfFrom 0 m

/-- The memory whose words from address `a` on are the given ones. -/
def Memory.ofWords : Nat → List LutWord → Memory
  | _, [] => []
  | a, w :: ws => if w = absentWord then Memory.ofWords (a + 1) ws else (a, w) :: Memory.ofWords (a + 1) ws

/-- The reset load: `T` holding all 128 words of a `LUT_INIT` (R32, R260). -/
def loadTable (lutInit : Vector LutWord 128) : Memory := Memory.ofWords 0 lutInit.toList

/-- `LutRead(a)`: the 21-bit word `T[a]`, with no side effect (R55). -/
def lutRead (t : Memory) (a : LutAddr) : LutWord := Memory.read t a.toNat

/-- Bit 20 of a table word: the slot is defined (R30). -/
def lutPresent (w : LutWord) : Bool := w.getLsbD 20

/-- Bits 19..16 of a table word: the unit identifier (R30, R31). -/
def lutUnitId (w : LutWord) : Nibble := w.extractLsb' 16 4

/-- Bits 15..0 of a table word: the scale divisor (R30). -/
def lutScale (w : LutWord) : BitVec 16 := w.extractLsb' 0 16

/-- A table word from its fields (R30). -/
def mkLutWord (present : Bool) (unitId : Nibble) (scale : BitVec 16) : LutWord :=
  BitVec.ofBool present ++ unitId ++ scale

/-- The table address `{mode, unit_index}` = mode * 8 + unit_index (R30, R150). -/
def lutAddress (code : Nibble) (u : UnitIndex) : LutAddr := code ++ u

/-- The open parameters a block is built with (R8): the seven mode codes the document leaves open, the
table's contents, the slot whose unit is the empty string, the string of each unit identifier, and LATENCY,
the number of steps between ACCEPT and COMPLETE (R263). -/
structure Params where
  codeCurrentA : Nibble
  codeCurrentMa : Nibble
  codeCurrentUa : Nibble
  codeResistance : Nibble
  codeFrequency : Nibble
  codeDiode : Nibble
  codeContinuity : Nibble
  lutInit : Vector LutWord 128
  emptyUnitSlot : LutAddr
  unitStr : Vector String 16
  latency : Nat
deriving DecidableEq, Repr, Inhabited

/-- `MODE_CODE`: VOLTAGE, CAPACITANCE and DUTY are fixed, the other seven are open (R80). -/
def Params.modeCode (p : Params) : Mode → Nibble
  | .voltage => 0xB
  | .currentA => p.codeCurrentA
  | .currentMa => p.codeCurrentMa
  | .currentUa => p.codeCurrentUa
  | .resistance => p.codeResistance
  | .frequency => p.codeFrequency
  | .capacitance => 0x6
  | .diode => p.codeDiode
  | .continuity => p.codeContinuity
  | .duty => 0x8

/-- A code names one of the ten modes (R80, R81). -/
def Params.namesMode (p : Params) (c : Nibble) : Bool :=
  Mode.all.any fun m => p.modeCode m == c

/-- `UNIT_STR`, with identifier 0 the empty string (R31). -/
def Params.unitString (p : Params) (k : Nibble) : String :=
  if k = 0 then "" else p.unitStr[k.toFin]

/-- R80: the ten codes are distinct and 0xA names no mode. -/
def Params.codesOk (p : Params) : Bool :=
  decide ((Mode.all.map p.modeCode).Nodup) && !p.namesMode 0xA

/-- The word of `LUT_INIT` at the slot (code, unit index). -/
def Params.slot (p : Params) (c : Nibble) (u : UnitIndex) : LutWord :=
  p.lutInit[(lutAddress c u).toFin]

/-- A row has table length `l`: its first `l` words are present and the rest absent (R149(a)). -/
def Params.rowHasLength (p : Params) (c : Nibble) (l : Nat) : Bool :=
  decide (1 ≤ l) && decide (l ≤ 8) &&
    (List.range 8).all fun j => lutPresent (p.slot c (BitVec.ofNat 3 j)) == decide (j < l)

/-- R149(a): every mode's row has a length from 1 to 8. -/
def Params.rowsOk (p : Params) : Bool :=
  Mode.all.all fun m => (List.range 9).any fun l => p.rowHasLength (p.modeCode m) l

/-- R149(b): every word of a row whose code names no mode is absent. -/
def Params.invalidRowsAbsent (p : Params) : Bool :=
  (List.range 16).all fun c => p.namesMode (BitVec.ofNat 4 c) ||
    (List.range 8).all fun j => !lutPresent (p.slot (BitVec.ofNat 4 c) (BitVec.ofNat 3 j))

/-- R149(c) and (d): a present word has a scale of at least 1, an absent word is all zero. -/
def Params.wordOk (w : LutWord) : Bool :=
  if lutPresent w then decide (1 ≤ (lutScale w).toNat)
  else lutUnitId w == 0 && lutScale w == 0

/-- R149(e): the empty-unit slot is present with unit_id 0, and every other present word has a
unit_id other than 0 whose string is not empty. -/
def Params.emptyUnitOnce (p : Params) : Bool :=
  (List.finRange 128).all fun a =>
    let w := p.lutInit[a]
    if a.val = p.emptyUnitSlot.toNat then lutPresent w && lutUnitId w == 0
    else !lutPresent w || (lutUnitId w != 0 && p.unitString (lutUnitId w) != "")

/-- R149(f) and (g): the two entries the document fixes. -/
def Params.fixedScales (p : Params) : Bool :=
  lutScale (p.slot 0xB 4) == 100 && lutScale (p.slot 0x6 0) == 1000

/-- The parameters are admitted: the mode codes meet R80 and `LUT_INIT` meets every condition of
R149. -/
def Params.admitted (p : Params) : Bool :=
  p.codesOk && p.rowsOk && p.invalidRowsAbsent && p.lutInit.toList.all Params.wordOk &&
    p.emptyUnitOnce && p.fixedScales

end Sys2Proof.Machine
end

