-- ==== Sys2Proof/Config.lean ====
section
/-! DEFINITION. What an implementation fixes and the spec leaves open (spec/00_scope.md R8,
spec/92_eei_decisions.md D1, D7, D8, D9). The machine is built with constants nothing can evaluate; the
candidate of spec/93_implementation_defined.md stands beside them. -/

namespace Sys2Proof

open Sys2Proof.Machine

/-- The candidate rows of R153, as (unit_id, scale). PRESUMED (log entry 6), but for the two scales the
document fixes. DESIGN CHOICE (log entry 6): the slot DIODE index 0 is taken as `EMPTY_UNIT_SLOT`, so
its unit_id is 0 where R153 lists 1. -/
def Config.candidateRow (code : Nat) : List (Nibble × BitVec 16) :=
  match code with
  | 0x0 => [(3, 1000)]
  | 0x1 => [(0, 10000)]
  | 0x2 => [(9, 100), (9, 10), (10, 10000), (10, 1000), (10, 100), (11, 10000), (11, 1000), (11, 100)]
  | 0x3 => [(6, 100), (7, 10000), (7, 1000), (7, 100), (8, 10000), (8, 1000), (8, 100)]
  | 0x5 => [(6, 100)]
  | 0x6 => [(12, 1000), (12, 100), (13, 10000), (13, 1000), (13, 100), (14, 10000), (14, 1000), (14, 100)]
  | 0x8 => [(15, 10)]
  | 0xB => [(1, 10000), (1, 1000), (1, 100), (1, 10), (2, 100)]
  | 0xD => [(5, 100), (5, 10)]
  | 0xF => [(4, 1000), (4, 100)]
  | _ => []

/-- The candidate `LUT_INIT` (R153). PRESUMED (log entry 6). -/
def Config.candidateLut : Vector LutWord 128 :=
  Vector.ofFn fun a =>
    match (Config.candidateRow (a.val / 8))[a.val % 8]? with
    | some (unitId, scale) => mkLutWord true unitId scale
    | none => absentWord

/-- The candidate `UNIT_STR` (spec/93_implementation_defined.md I3). PRESUMED (log entry 6). -/
def Config.candidateUnitStr : Vector String 16 :=
  #v["", "V", "mV", "A", "mA", "µA", "Ω", "kΩ", "MΩ", "Hz", "kHz", "MHz", "nF", "µF", "mF", "%"]

/-- The candidate parameters (R80, R153, I1 to I3). PRESUMED (log entry 6). The spec has no candidate for
LATENCY: 0 is this value's own, and `Config.params` never takes it (log entry 3). -/
def Config.candidate : Params where
  codeCurrentA := 0x0
  codeCurrentMa := 0xF
  codeCurrentUa := 0xD
  codeResistance := 0x3
  codeFrequency := 0x2
  codeDiode := 0x1
  codeContinuity := 0x5
  lutInit := Config.candidateLut
  emptyUnitSlot := lutAddress 0x1 0
  unitStr := Config.candidateUnitStr
  latency := 0

/-- The integrator's parameters, before the check: no body, so nothing can evaluate them (log entry 5).
LATENCY is one of them: open and free (R263, R274, D1; log entry 3). -/
opaque Config.supplied : Params

/-- The parameters the machine is built with: the integrator's where they are admitted (R80, R149). Where
they are not the block is refused (`boot`), and the candidate with the integrator's LATENCY stands in, so
that this constant is always admitted (log entry 5). -/
def Config.params : Params :=
  if Config.supplied.admitted then Config.supplied
  else { Config.candidate with latency := Config.supplied.latency }

end Sys2Proof
end

