-- ==== Sys2Proof/Machine/State.lean ====
section
/-! DEFINITION. The block's state as plain data (spec/10_state.md R20 to R38), the input port the host
drives, the model's own pipeline fields, and the state after reset (R37, R260). -/

namespace Sys2Proof.Machine

/-- The status codes 0 to 3, in this order (R27, R230). -/
inductive Status where
  | ok
  | invalidLength
  | parityMismatch
  | unknownModeOrUnit
deriving DecidableEq, Repr

/-- The measurement group `m_*` (R25). -/
structure Measurement where
  mode : Nibble
  unitId : Nibble
  scale : BitVec 16
  magnitude : BitVec 18
  negative : Bool
  overload : Bool
  underload : Bool
  freq : Bool
  duty : Bool
  dc : Bool
  ac : Bool
deriving DecidableEq, Repr

/-- The diagnostic group and the raw bank `d_*` (R26). -/
structure Diagnostic where
  raw : RawFrame
  parOk : BitVec 14
  unitIndex : UnitIndex
  modeBase : Nibble
  typ : Nibble
  info : Nibble
  underload : Bool
  digit : Vector Nibble 5
  modeRes : Nibble
  dutyCond : Bool
  lutHit : Bool
deriving DecidableEq, Repr

/-- The result register `RES` (R24). -/
structure Result where
  status : Status
  meas : Measurement
  diag : Diagnostic
deriving DecidableEq, Repr

/-- The pins the host drives: the reset signal (R210) and the input port (R21). -/
structure Port where
  rst : Bool
  req : Bool
  inLen : Len
  inByte : Frame
deriving DecidableEq, Repr

/-- MODEL's own: where the DECODE in flight stands in the pipeline order of R2 (log entry 1). -/
inductive Stage where
  /-- Steps 1 to 3 are done; the first term of the duty condition is next. -/
  | ovrDutyBit
  /-- The second term of the duty condition is next. -/
  | ovrDutyEq
  /-- The frequency override is next. -/
  | ovrFreq
  /-- The table read is next. -/
  | lookup
  /-- COMPLETE is next. -/
  | complete
deriving DecidableEq, Repr

/-- MODEL's own: the signals the selector rows drive, as the stage rules R140 and R150 name them under
"Writes" (log entry 1). No output is computed from them. -/
structure Wires where
  modeRes : Nibble
  dutyCond : Bool
  lutHit : Bool
  unitId : Nibble
  scale : BitVec 16
deriving DecidableEq, Repr

/-- The state: the elements of R20, the input port of R21, and the model's own: `params`, what the block
was built with (R8; no step writes it, log entry 5), `stage` and `wires` (log entry 1), and `countdown`,
what is left of LATENCY (log entry 3). -/
structure State where
  params : Params
  table : Memory
  ready : Bool
  busy : Bool
  capLen : Len
  capByte : Frame
  valid : Bool
  res : Result
  port : Port
  stage : Stage
  wires : Wires
  countdown : Nat
deriving DecidableEq, Repr

/-- The block has no fault: no input makes it fault or hang (R199, R231, R234; log entry 15). So this type
has no constructor, and that is safe: nothing is proved of a fault the hardware could raise. -/
inductive Fault where
deriving DecidableEq, Repr

/-- Why a move is refused. -/
inductive Refusal where
  /-- Raised by an arm of `exec` whose instruction has no meaning yet; safe. (No arm raises it.) -/
  | notModelled (mnemonic : String)
  /-- Raised by `step` where the bytes of the operation in flight are none; safe, and never reached. -/
  | undecodedOperation
  /-- Raised by `boot` and `clusterReset` on parameters that fail R80 or R149; safe: the spec refuses them. -/
  | lutInitNotAdmitted
  /-- Raised by `hostRequest` for a host whose length port is not its saturated length (R212); safe. -/
  | lengthNotSaturated
  /-- Raised by `hostDrive` for a host that changes a request it has raised and the block has not accepted
  (R271): such a host has no meaning in the model (spec/92_eei_decisions.md D17); safe. -/
  | inputsNotHeld
  /-- Raised by `transact` for a request that waits on `ready = 0` for ever
  (R262, spec/93_implementation_defined.md section 1); safe. -/
  | requestNotAccepted
deriving DecidableEq, Repr

/-- The measurement group with every field 0 (R37, R192). -/
def Measurement.zero : Measurement where
  mode := 0
  unitId := 0
  scale := 0
  magnitude := 0
  negative := false
  overload := false
  underload := false
  freq := false
  duty := false
  dc := false
  ac := false

/-- The diagnostic group with every field 0 (R37, R193). -/
def Diagnostic.zero : Diagnostic where
  raw := Vector.replicate 14 0
  parOk := 0
  unitIndex := 0
  modeBase := 0
  typ := 0
  info := 0
  underload := false
  digit := Vector.replicate 5 0
  modeRes := 0
  dutyCond := false
  lutHit := false

/-- The result register with every field 0 (R37). -/
def Result.zero : Result where
  status := .ok
  meas := Measurement.zero
  diag := Diagnostic.zero

/-- No request and no reset on the pins (log entry 4). -/
def Port.idle : Port where
  rst := false
  req := false
  inLen := 0
  inByte := Vector.replicate 14 0

/-- All wires 0 (log entry 13). -/
def Wires.zero : Wires where
  modeRes := 0
  dutyCond := false
  lutHit := false
  unitId := 0
  scale := 0

/-- The state when the reset of a block built with given parameters completes: R37, with the model's own
fields as log entry 13 gives them. -/
def State.resetWith (p : Params) : State where
  params := p
  table := loadTable p.lutInit
  ready := true
  busy := false
  capLen := 0
  capByte := Vector.replicate 14 0
  valid := false
  res := Result.zero
  port := Port.idle
  stage := .ovrDutyBit
  wires := Wires.zero
  countdown := 0

/-- The machine right after reset (R37, R260). -/
def State.reset : State := State.resetWith Config.params

end Sys2Proof.Machine
end

