-- ==== Sys2Proof/Machine/Parity.lean ====
section
/-! DEFINITION. The parity validator: length check, parity check and masking (spec/40_parity.md). -/

namespace Sys2Proof.Machine

/-- LENCHK (R100): exactly 14. -/
def lenOk (len : Len) : Bool := len == 14

/-- The document's fold by right shifts of 4, 2 and 1, at any width (R101, R103). -/
def foldParity {w : Nat} (b : BitVec w) : Bool :=
  let b := b ^^^ (b >>> 4)
  let b := b ^^^ (b >>> 2)
  let b := b ^^^ (b >>> 1)
  b.getLsbD 0

/-- PARCHK (R101): 1 means odd parity, and passes. -/
def parOk (b : Byte) : Bool := foldParity b

/-- PARALL's vector, bit `i` for byte `i` (R102). -/
def parVec (f : Frame) : BitVec 14 :=
  BitVec.ofBool (parOk f[13]) ++ BitVec.ofBool (parOk f[12]) ++ BitVec.ofBool (parOk f[11]) ++
    BitVec.ofBool (parOk f[10]) ++ BitVec.ofBool (parOk f[9]) ++ BitVec.ofBool (parOk f[8]) ++
    BitVec.ofBool (parOk f[7]) ++ BitVec.ofBool (parOk f[6]) ++ BitVec.ofBool (parOk f[5]) ++
    BitVec.ofBool (parOk f[4]) ++ BitVec.ofBool (parOk f[3]) ++ BitVec.ofBool (parOk f[2]) ++
    BitVec.ofBool (parOk f[1]) ++ BitVec.ofBool (parOk f[0])

/-- PARALL's verdict (R102). -/
def parAll (f : Frame) : Bool := parVec f == 0x3FFF

/-- MASK of one byte: bit 7 cleared, the low 7 bits kept (R104). -/
def maskByte (b : Byte) : RawByte := (b &&& 0x7F).setWidth 7

/-- MASK: the raw array (R104). -/
def maskFrame (f : Frame) : RawFrame := Vector.ofFn fun i => maskByte f[i]

end Sys2Proof.Machine
end

