-- ==== Sys2Proof/Machine/Operands.lean ====
section
/-! DEFINITION. The field extractor (spec/41_field_extract.md, spec/30_encoding.md R71 to R76, R83): every
field is taken unsigned from the masked raw array. -/

namespace Sys2Proof.Machine

/-- EXT_TYPE: DC, AC, AUTO, HZ in bits 3..0 (R120). -/
def extType (r : RawFrame) : Nibble := r[10].extractLsb' 0 4

/-- EXT_INFO: DUTYB, NEG, LOWBAT, OL in bits 3..0 (R121). -/
def extInfo (r : RawFrame) : Nibble := r[7].extractLsb' 0 4

/-- EXT_UL (R122). -/
def extUnderload (r : RawFrame) : Bool := r[9].getLsbD 3

/-- EXT_MODE (R123). -/
def extMode (r : RawFrame) : Nibble := r[6].extractLsb' 0 4

/-- EXT_UIDX (R124). -/
def extUnitIndex (r : RawFrame) : UnitIndex := r[0].extractLsb' 0 3

/-- EXT_DIGITS, digit 0 the most significant (R125). -/
def extDigits (r : RawFrame) : Vector Nibble 5 :=
  #v[r[1].extractLsb' 0 4, r[2].extractLsb' 0 4, r[3].extractLsb' 0 4, r[4].extractLsb' 0 4,
    r[5].extractLsb' 0 4]

end Sys2Proof.Machine
end

