-- ==== Sys2Proof/Machine/Flags.lean ====
section
/-! DEFINITION. The duty condition and the seven predicates (spec/42_mode_lut.md R140, R142;
spec/44_result_mux.md R194; spec/10_state.md R36). -/

namespace Sys2Proof.Machine

/-- The duty condition, the OR of its two terms, kept literally (R142). -/
def dutyCond (info : Nibble) : Bool := info.getLsbD 3 || info == 0b1000

/-- `m_negative` = info bit 2, also SIGN (R173, R194). -/
def flagNegative (r : RawFrame) : Bool := (extInfo r).getLsbD 2

/-- `m_overload` = info bit 0 (R194). -/
def flagOverload (r : RawFrame) : Bool := (extInfo r).getLsbD 0

/-- `m_underload` = raw[9] bit 3 (R194). -/
def flagUnderload (r : RawFrame) : Bool := extUnderload r

/-- `m_freq` = type bit 0, the raw condition (R194). -/
def flagFreq (r : RawFrame) : Bool := (extType r).getLsbD 0

/-- `m_duty` = the duty condition, not a comparison of the mode (R194). -/
def flagDuty (r : RawFrame) : Bool := dutyCond (extInfo r)

/-- `m_dc` = type bit 3 (R194, R198). -/
def flagDc (r : RawFrame) : Bool := (extType r).getLsbD 3

/-- `m_ac` = type bit 2 (R194, R198). -/
def flagAc (r : RawFrame) : Bool := (extType r).getLsbD 2

end Sys2Proof.Machine
end

