-- ==== Sys2Proof/Machine/Scalar.lean ====
section
/-! DEFINITION. The fixed-point integer scalar (spec/43_scalar.md R170 to R174): the exact triple
(negative, magnitude, scale). -/

namespace Sys2Proof.Machine

/-- BCDMAG in exact natural-number arithmetic; a digit nibble counts by its binary value (R170, R172). -/
def magnitudeNat (d : Vector Nibble 5) : Nat :=
  d[0].toNat * 10000 + d[1].toNat * 1000 + d[2].toNat * 100 + d[3].toNat * 10 + d[4].toNat

/-- The 18-bit magnitude (R171). -/
def magnitude (d : Vector Nibble 5) : BitVec 18 := BitVec.ofNat 18 (magnitudeNat d)

/-- The exact value of a triple: (-1)^negative x magnitude / scale (R173, R174). -/
def exactValue (negative : Bool) (mag : BitVec 18) (scale : BitVec 16) : ℚ :=
  (if negative then -1 else 1) * mag.toNat / scale.toNat

end Sys2Proof.Machine
end

