-- ==== Sys2Proof/Machine/ModeLut.lean ====
section
/-! DEFINITION. Mode resolution and the lookup read (spec/42_mode_lut.md R140 to R152). -/

namespace Sys2Proof.Machine

/-- MODERES: the frequency override first, then the duty override, else the base mode (R140, R143). -/
def modeRes (p : Params) (modeBase typ info : Nibble) : Nibble :=
  if typ.getLsbD 0 then p.modeCode .frequency
  else if dutyCond info then p.modeCode .duty
  else modeBase

/-- The resolved mode of a raw frame (R141). -/
def resolvedMode (p : Params) (r : RawFrame) : Nibble := modeRes p (extMode r) (extType r) (extInfo r)

/-- LUTRD of a frame: the word at `{mode_res, unit_index}` (R150). -/
def frameWord (p : Params) (r : RawFrame) (t : Memory) : LutWord :=
  lutRead t (lutAddress (resolvedMode p r) (extUnitIndex r))

end Sys2Proof.Machine
end

