-- ==== Sys2Proof/Machine/ResultMux.lean ====
section
/-! DEFINITION. The result multiplexer and the pure function `decode(cap_len, cap_byte, T)`
(spec/44_result_mux.md R190 to R199; spec/60_exceptions.md R230, R233). -/

namespace Sys2Proof.Machine

/-- The one status a DECODE raises, in the order of R233: length, then parity, then lookup. Nothing
traps: raising an error only selects a status (R232, R234). -/
def raiseStatus (lengthOk parityOk lutHit : Bool) : Status :=
  if !lengthOk then .invalidLength
  else if !parityOk then .parityMismatch
  else if !lutHit then .unknownModeOrUnit
  else .ok

/-- The status of a transaction (R190). -/
def decodeStatus (p : Params) (len : Len) (f : Frame) (t : Memory) : Status :=
  raiseStatus (lenOk len) (parAll f) (lutPresent (frameWord p (maskFrame f) t))

/-- The diagnostic group before gating (R190, R193). -/
def diagnosticOf (p : Params) (f : Frame) (t : Memory) : Diagnostic :=
  let r := maskFrame f
  { raw := r
    parOk := parVec f
    unitIndex := extUnitIndex r
    modeBase := extMode r
    typ := extType r
    info := extInfo r
    underload := extUnderload r
    digit := extDigits r
    modeRes := resolvedMode p r
    dutyCond := dutyCond (extInfo r)
    lutHit := lutPresent (frameWord p r t) }

/-- The measurement group before gating (R190, R194). -/
def measurementOf (p : Params) (f : Frame) (t : Memory) : Measurement :=
  let r := maskFrame f
  { mode := resolvedMode p r
    unitId := lutUnitId (frameWord p r t)
    scale := lutScale (frameWord p r t)
    magnitude := magnitude (extDigits r)
    negative := flagNegative r
    overload := flagOverload r
    underload := flagUnderload r
    freq := flagFreq r
    duty := flagDuty r
    dc := flagDc r
    ac := flagAc r }

/-- Gating of the measurement group: driven only on OK (R192). -/
def gateMeasurement (st : Status) (m : Measurement) : Measurement :=
  match st with
  | .ok => m
  | .invalidLength => Measurement.zero
  | .parityMismatch => Measurement.zero
  | .unknownModeOrUnit => Measurement.zero

/-- Gating of the diagnostic group: driven unless the length is bad (R193). -/
def gateDiagnostic (st : Status) (d : Diagnostic) : Diagnostic :=
  match st with
  | .ok => d
  | .invalidLength => Diagnostic.zero
  | .parityMismatch => d
  | .unknownModeOrUnit => d

/-- `decode(cap_len, cap_byte, T)` (R190): total, reading no state but `T` (R199). -/
def decodeFrame (p : Params) (len : Len) (f : Frame) (t : Memory) : Result :=
  let st := decodeStatus p len f t
  { status := st
    meas := gateMeasurement st (measurementOf p f t)
    diag := gateDiagnostic st (diagnosticOf p f t) }

end Sys2Proof.Machine
end

