-- ==== Sys2Proof/Machine/Ops.lean ====
section
/-! DEFINITION. The three steps of the block as operations on the state, RESET, ACCEPT and COMPLETE
(spec/70_reset_and_hazards.md R260 to R263), the load of a block with given parameters (R149, R266), and
the operations the selector rows share (spec/42_mode_lut.md R140, R150). There is no exception entry: an
error is a status value (spec/60_exceptions.md R234). -/

namespace Sys2Proof.Machine

/-- RESET (R260): every element at its reset value, `T` loaded with the `LUT_INIT` the block was built
with; the pins stay as the host drives them. -/
def resetOp (s : State) : State := { State.resetWith s.params with port := s.port }

/-- When ACCEPT is enabled (R262); a reset comes before it (log entry 14). -/
def acceptEnabled (s : State) : Bool := s.ready && !s.busy && s.port.req

/-- ACCEPT (R262): the capture, `busy` and `valid`. RES keeps its old value. The model's own fields start
the pipeline: the wires hold the base mode, a bad length has no selector to run (R105; log entry 1), and
LATENCY starts to pass (log entry 3). -/
def acceptOp (len : Len) (f : Frame) (s : State) : State :=
  { s with
    capLen := len
    capByte := f
    busy := true
    valid := false
    stage := if lenOk len then .ovrDutyBit else .complete
    wires := if lenOk len then { Wires.zero with modeRes := extMode (maskFrame f) } else Wires.zero
    countdown := s.params.latency }

/-- COMPLETE (R263): all of RES at once, `busy` and `valid`. -/
def completeOp (len : Len) (f : Frame) (s : State) : State :=
  { s with res := decodeFrame s.params len f s.table, busy := false, valid := true }

/-- LUTRD on the wires (R150): one read of the table at `{code, u}`; then no selector is left. -/
def lookupOp (code : Nibble) (u : UnitIndex) (s : State) : State :=
  let w := lutRead s.table (lutAddress code u)
  { s with
    wires := { s.wires with lutHit := lutPresent w, unitId := lutUnitId w, scale := lutScale w }
    stage := .complete }

/-- MODERES's frequency override on the wires (R140, R143). -/
def freqOverrideOp (fires : Bool) (s : State) : State :=
  { s with
    wires := if fires then { s.wires with modeRes := s.params.modeCode .frequency } else s.wires
    stage := .lookup }

/-- One term of the duty condition on the wires: it sets `duty_cond`, and the mode to DUTY unless the
frequency button of the captured frame is set (R140, R142, R143). -/
def dutyTermOp (fires : Bool) (next : Stage) (s : State) : State :=
  { s with
    wires :=
      if fires then
        { s.wires with
          dutyCond := true
          modeRes := if flagFreq (maskFrame s.capByte) then s.wires.modeRes
            else s.params.modeCode .duty }
      else s.wires
    stage := next }

/-- One step of LATENCY passing: nothing the host can see changes (R263; log entry 3). -/
def tickOp (s : State) : State := { s with countdown := s.countdown - 1 }

/-- Building a block with given parameters and resetting it: refused where they are not admitted (R149,
R266; that mode codes failing R80 are refused too, and that the block keeps its parameters, is log entry 5). -/
def boot (p : Params) : Host.Outcome State Fault Refusal :=
  if p.admitted then .next (State.resetWith p) else .refused .lutInitNotAdmitted

end Sys2Proof.Machine
end

