-- ==== Sys2Proof/Machine/DecodeOp.lean ====
section
/-! DEFINITION. The meaning of DECODE (spec/44_result_mux.md R190): the completion that writes RES with
the value of the pure function (spec/70_reset_and_hazards.md R263; log entry 9). -/

namespace Sys2Proof.Machine

/-- DECODE of a length and a frame: any length and any bytes complete (R190, R199). -/
def execDecode (len : Len) (frame : Frame) (s : State) : Host.Outcome State Fault Refusal :=
  .next (completeOp len frame s)

end Sys2Proof.Machine
end

