-- ==== Sys2Proof/Machine/Modesel.lean ====
section
/-! DEFINITION. The meanings of the 16 MODESEL rows (spec/30_encoding.md R88, spec/42_mode_lut.md R150,
R151): the lookup at the row's code and the operand's unit index. Whether a code names a mode is what the
table says (R149(a), (b)), so the six rows that name no mode under the candidate read the table as the
others do and find the slot absent (log entry 2). -/

namespace Sys2Proof.Machine

/-- MODESEL_CURRENT_A: the row of code 0x0 (R80, R150). -/
def execModeselCurrentA (u : UnitIndex) (s : State) : Host.Outcome State Fault Refusal :=
  .next (lookupOp 0x0 u s)

/-- MODESEL_DIODE: the row of code 0x1 (R80, R150). -/
def execModeselDiode (u : UnitIndex) (s : State) : Host.Outcome State Fault Refusal :=
  .next (lookupOp 0x1 u s)

/-- MODESEL_FREQUENCY: the row of code 0x2 (R80, R150). -/
def execModeselFrequency (u : UnitIndex) (s : State) : Host.Outcome State Fault Refusal :=
  .next (lookupOp 0x2 u s)

/-- MODESEL_RESISTANCE: the row of code 0x3 (R80, R150). -/
def execModeselResistance (u : UnitIndex) (s : State) : Host.Outcome State Fault Refusal :=
  .next (lookupOp 0x3 u s)

/-- MODESEL_INVALID_4: code 0x4, a miss where the table has no entry (R81, R151). -/
def execModeselInvalid4 (u : UnitIndex) (s : State) : Host.Outcome State Fault Refusal :=
  .next (lookupOp 0x4 u s)

/-- MODESEL_CONTINUITY: the row of code 0x5 (R80, R150). -/
def execModeselContinuity (u : UnitIndex) (s : State) : Host.Outcome State Fault Refusal :=
  .next (lookupOp 0x5 u s)

/-- MODESEL_CAPACITANCE: the row of code 0x6 (R80, R150). -/
def execModeselCapacitance (u : UnitIndex) (s : State) : Host.Outcome State Fault Refusal :=
  .next (lookupOp 0x6 u s)

/-- MODESEL_INVALID_7: code 0x7, a miss where the table has no entry (R81, R151). -/
def execModeselInvalid7 (u : UnitIndex) (s : State) : Host.Outcome State Fault Refusal :=
  .next (lookupOp 0x7 u s)

/-- MODESEL_DUTY: the row of code 0x8 (R80, R150). -/
def execModeselDuty (u : UnitIndex) (s : State) : Host.Outcome State Fault Refusal :=
  .next (lookupOp 0x8 u s)

/-- MODESEL_INVALID_9: code 0x9, a miss where the table has no entry (R81, R151). -/
def execModeselInvalid9 (u : UnitIndex) (s : State) : Host.Outcome State Fault Refusal :=
  .next (lookupOp 0x9 u s)

/-- MODESEL_INVALID_A: code 0xA, a miss where the table has no entry (R81, R151). -/
def execModeselInvalidA (u : UnitIndex) (s : State) : Host.Outcome State Fault Refusal :=
  .next (lookupOp 0xA u s)

/-- MODESEL_VOLTAGE: the row of code 0xB (R80, R150). -/
def execModeselVoltage (u : UnitIndex) (s : State) : Host.Outcome State Fault Refusal :=
  .next (lookupOp 0xB u s)

/-- MODESEL_INVALID_C: code 0xC, a miss where the table has no entry (R81, R151). -/
def execModeselInvalidC (u : UnitIndex) (s : State) : Host.Outcome State Fault Refusal :=
  .next (lookupOp 0xC u s)

/-- MODESEL_CURRENT_UA: the row of code 0xD (R80, R150). -/
def execModeselCurrentUa (u : UnitIndex) (s : State) : Host.Outcome State Fault Refusal :=
  .next (lookupOp 0xD u s)

/-- MODESEL_INVALID_E: code 0xE, a miss where the table has no entry (R81, R151). -/
def execModeselInvalidE (u : UnitIndex) (s : State) : Host.Outcome State Fault Refusal :=
  .next (lookupOp 0xE u s)

/-- MODESEL_CURRENT_MA: the row of code 0xF (R80, R150). -/
def execModeselCurrentMa (u : UnitIndex) (s : State) : Host.Outcome State Fault Refusal :=
  .next (lookupOp 0xF u s)

end Sys2Proof.Machine
end

