-- ==== Sys2Proof/Syntax.lean ====
section
/-! DEFINITION. One constructor per row of spec/opcode_table.json (spec/30_encoding.md R88). -/

namespace Sys2Proof

/-- The operations of the opcode table. DECODE carries the length and the frame. A MODESEL row carries
the unit index of the table address `{mode_res, unit_index}`; its own code is the row's match. An OVR
row carries the masked raw byte it tests. -/
inductive Instr where
  | decode (len : Len) (frame : Frame)
  | modeselCurrentA (u : UnitIndex)
  | modeselDiode (u : UnitIndex)
  | modeselFrequency (u : UnitIndex)
  | modeselResistance (u : UnitIndex)
  | modeselInvalid4 (u : UnitIndex)
  | modeselContinuity (u : UnitIndex)
  | modeselCapacitance (u : UnitIndex)
  | modeselInvalid7 (u : UnitIndex)
  | modeselDuty (u : UnitIndex)
  | modeselInvalid9 (u : UnitIndex)
  | modeselInvalidA (u : UnitIndex)
  | modeselVoltage (u : UnitIndex)
  | modeselInvalidC (u : UnitIndex)
  | modeselCurrentUa (u : UnitIndex)
  | modeselInvalidE (u : UnitIndex)
  | modeselCurrentMa (u : UnitIndex)
  | ovrFreq (b : RawByte)
  | ovrDutyBit (b : RawByte)
  | ovrDutyEq (b : RawByte)
deriving DecidableEq, Repr

end Sys2Proof
end

