-- ==== Sys2Proof/WellFormed.lean ====
section
/-! DEFINITION. When an instruction's operand is one its row of spec/opcode_table.json matches. -/

namespace Sys2Proof

/-- Row OVR_FREQ: raw[10] & 0x1 == 0x1 (R88, R140). -/
def firesFreq (b : RawByte) : Bool := b &&& 0x1 == 0x1

/-- Row OVR_DUTY_BIT: raw[7] & 0x8 == 0x8 (R88, R142). -/
def firesDutyBit (b : RawByte) : Bool := b &&& 0x8 == 0x8

/-- Row OVR_DUTY_EQ: raw[7] & 0xF == 0x8 (R88, R142). -/
def firesDutyEq (b : RawByte) : Bool := b &&& 0xF == 0x8

/-- An override selector stands for a byte its row matches; every length, frame and unit index is a
legal operand (R70, R82, R199). -/
def WellFormed : Instr → Bool
  | .decode _ _ => true
  | .modeselCurrentA _ => true
  | .modeselDiode _ => true
  | .modeselFrequency _ => true
  | .modeselResistance _ => true
  | .modeselInvalid4 _ => true
  | .modeselContinuity _ => true
  | .modeselCapacitance _ => true
  | .modeselInvalid7 _ => true
  | .modeselDuty _ => true
  | .modeselInvalid9 _ => true
  | .modeselInvalidA _ => true
  | .modeselVoltage _ => true
  | .modeselInvalidC _ => true
  | .modeselCurrentUa _ => true
  | .modeselInvalidE _ => true
  | .modeselCurrentMa _ => true
  | .ovrFreq b => firesFreq b
  | .ovrDutyBit b => firesDutyBit b
  | .ovrDutyEq b => firesDutyEq b

end Sys2Proof
end

