-- ==== Sys2Proof/Machine/Override.lean ====
section
/-! DEFINITION. The meanings of the three override selectors (spec/30_encoding.md R88, spec/42_mode_lut.md
R140, R142, R143). A byte the row does not match overrides nothing. -/

namespace Sys2Proof.Machine

/-- OVR_FREQ: raw[10] bit 0 set puts the resolved mode at FREQUENCY (R140, R143). -/
def execOvrFreq (b : RawByte) (s : State) : Host.Outcome State Fault Refusal :=
  .next (freqOverrideOp (firesFreq b) s)

/-- OVR_DUTY_BIT: the first term of the duty condition, raw[7] bit 3 (R140, R142). -/
def execOvrDutyBit (b : RawByte) (s : State) : Host.Outcome State Fault Refusal :=
  .next (dutyTermOp (firesDutyBit b) .ovrDutyEq s)

/-- OVR_DUTY_EQ: the second term of the duty condition, raw[7] bits 3..0 = 0b1000 (R142). -/
def execOvrDutyEq (b : RawByte) (s : State) : Host.Outcome State Fault Refusal :=
  .next (dutyTermOp (firesDutyEq b) .ovrFreq s)

end Sys2Proof.Machine
end

