-- ==== Sys2Proof/Machine/Dispatch.lean ====
section
/-! DEFINITION. One arm per row of spec/opcode_table.json. -/

namespace Sys2Proof.Machine

def exec (i : Instr) (s : State) : Host.Outcome State Fault Refusal :=
  match i with
  | .decode len frame => Sys2Proof.Machine.execDecode len frame s
  | .modeselCurrentA u => Sys2Proof.Machine.execModeselCurrentA u s
  | .modeselDiode u => Sys2Proof.Machine.execModeselDiode u s
  | .modeselFrequency u => Sys2Proof.Machine.execModeselFrequency u s
  | .modeselResistance u => Sys2Proof.Machine.execModeselResistance u s
  | .modeselInvalid4 u => Sys2Proof.Machine.execModeselInvalid4 u s
  | .modeselContinuity u => Sys2Proof.Machine.execModeselContinuity u s
  | .modeselCapacitance u => Sys2Proof.Machine.execModeselCapacitance u s
  | .modeselInvalid7 u => Sys2Proof.Machine.execModeselInvalid7 u s
  | .modeselDuty u => Sys2Proof.Machine.execModeselDuty u s
  | .modeselInvalid9 u => Sys2Proof.Machine.execModeselInvalid9 u s
  | .modeselInvalidA u => Sys2Proof.Machine.execModeselInvalidA u s
  | .modeselVoltage u => Sys2Proof.Machine.execModeselVoltage u s
  | .modeselInvalidC u => Sys2Proof.Machine.execModeselInvalidC u s
  | .modeselCurrentUa u => Sys2Proof.Machine.execModeselCurrentUa u s
  | .modeselInvalidE u => Sys2Proof.Machine.execModeselInvalidE u s
  | .modeselCurrentMa u => Sys2Proof.Machine.execModeselCurrentMa u s
  | .ovrFreq b => Sys2Proof.Machine.execOvrFreq b s
  | .ovrDutyBit b => Sys2Proof.Machine.execOvrDutyBit b s
  | .ovrDutyEq b => Sys2Proof.Machine.execOvrDutyEq b s

end Sys2Proof.Machine
end

