-- ==== Sys2Proof/Decode.lean ====
section
/-! DEFINITION. The three formats of spec/30_encoding.md R88 as bytes: the decoder, total on any bytes
and rejecting by name, and the encoder. The formats share no opcode field in the spec (they stand in
three different places of the block), so the format is an argument; log entry 7 gives the layout of the
containers. -/

namespace Sys2Proof

/-- The formats of the opcode table (R88). -/
inductive Format where
  /-- in_len and the 14 frame bytes (R79). -/
  | frame14
  /-- The 7-bit table address `{mode_res, unit_index}` (R83, R88). -/
  | modesel
  /-- A predicate on one masked raw byte. -/
  | ovr
deriving DecidableEq, Repr

/-- Why bytes are no operation of a format. -/
inductive DecodeReject where
  /-- Not the number of bytes the format has. -/
  | wrongSize
  /-- Bit 7 of a MODESEL byte or of a masked raw byte is set. -/
  | bit7Set
  /-- The frame offset and the mask name no row of format OVR. -/
  | noSuchSelector
  /-- The raw byte does not meet the row's predicate: the selector does not fire. -/
  | selectorNotFired
deriving DecidableEq, Repr

/-- The answer of the decoder. -/
inductive Decoded where
  | instr (i : Instr)
  | reject (why : DecodeReject)
deriving DecidableEq, Repr

/-- The MODESEL row of a mode code (R80, R88). -/
def modeselOf (code : Nibble) (u : UnitIndex) : Instr :=
  match code.toNat with
  | 0x0 => .modeselCurrentA u
  | 0x1 => .modeselDiode u
  | 0x2 => .modeselFrequency u
  | 0x3 => .modeselResistance u
  | 0x4 => .modeselInvalid4 u
  | 0x5 => .modeselContinuity u
  | 0x6 => .modeselCapacitance u
  | 0x7 => .modeselInvalid7 u
  | 0x8 => .modeselDuty u
  | 0x9 => .modeselInvalid9 u
  | 0xA => .modeselInvalidA u
  | 0xB => .modeselVoltage u
  | 0xC => .modeselInvalidC u
  | 0xD => .modeselCurrentUa u
  | 0xE => .modeselInvalidE u
  | _ => .modeselCurrentMa u

/-- Format MODESEL: the 7-bit address `{mode_res[3:0], unit_index[2:0]}`, mode_res in bits 6..3 (R11, R83,
R88), in a byte whose bit 7 is zero (log entry 7). -/
def decodeModesel (b : Byte) : Decoded :=
  if b.getLsbD 7 then .reject .bit7Set
  else .instr (modeselOf (b.extractLsb' 3 4) (b.extractLsb' 0 3))

/-- Format OVR: the raw byte, its frame offset, the row's mask (R88; log entry 7). -/
def decodeOvr (b offset mask : Byte) : Decoded :=
  let raw : RawByte := b.extractLsb' 0 7
  if b.getLsbD 7 then .reject .bit7Set
  else if offset = 10 ∧ mask = 0x1 then
    if firesFreq raw then .instr (.ovrFreq raw) else .reject .selectorNotFired
  else if offset = 7 ∧ mask = 0x8 then
    if firesDutyBit raw then .instr (.ovrDutyBit raw) else .reject .selectorNotFired
  else if offset = 7 ∧ mask = 0xF then
    if firesDutyEq raw then .instr (.ovrDutyEq raw) else .reject .selectorNotFired
  else .reject .noSuchSelector

/-- The operation some bytes are in a format (R88). Any in_len is a DECODE (R199). -/
def decodeAs : Format → List Byte → Decoded
  | .frame14, [l0, l1, b0, b1, b2, b3, b4, b5, b6, b7, b8, b9, b10, b11, b12, b13] =>
    .instr (.decode (l1 ++ l0) #v[b0, b1, b2, b3, b4, b5, b6, b7, b8, b9, b10, b11, b12, b13])
  | .frame14, _ => .reject .wrongSize
  | .modesel, [b] => decodeModesel b
  | .modesel, _ => .reject .wrongSize
  | .ovr, [b, offset, mask] => decodeOvr b offset mask
  | .ovr, _ => .reject .wrongSize

/-- The MODESEL byte of a code and a unit index: the address `{code, u}` below a zero bit. -/
def modeselByte (code : Nibble) (u : UnitIndex) : Byte := 0#1 ++ (code ++ u)

/-- A masked raw byte in a byte. -/
def rawInByte (b : RawByte) : Byte := 0#1 ++ b

/-- The length and the frame as bytes, low byte of the length first (log entry 7). -/
def frameBytes (len : Len) (f : Frame) : List Byte :=
  [len.extractLsb' 0 8, len.extractLsb' 8 8, f[0], f[1], f[2], f[3], f[4], f[5], f[6], f[7], f[8], f[9],
    f[10], f[11], f[12], f[13]]

/-- The format and the bytes of an instruction, from the rows of the opcode table (R88). -/
def encode : Instr → Format × List Byte
  | .decode len f => (.frame14, frameBytes len f)
  | .modeselCurrentA u => (.modesel, [modeselByte 0x0 u])
  | .modeselDiode u => (.modesel, [modeselByte 0x1 u])
  | .modeselFrequency u => (.modesel, [modeselByte 0x2 u])
  | .modeselResistance u => (.modesel, [modeselByte 0x3 u])
  | .modeselInvalid4 u => (.modesel, [modeselByte 0x4 u])
  | .modeselContinuity u => (.modesel, [modeselByte 0x5 u])
  | .modeselCapacitance u => (.modesel, [modeselByte 0x6 u])
  | .modeselInvalid7 u => (.modesel, [modeselByte 0x7 u])
  | .modeselDuty u => (.modesel, [modeselByte 0x8 u])
  | .modeselInvalid9 u => (.modesel, [modeselByte 0x9 u])
  | .modeselInvalidA u => (.modesel, [modeselByte 0xA u])
  | .modeselVoltage u => (.modesel, [modeselByte 0xB u])
  | .modeselInvalidC u => (.modesel, [modeselByte 0xC u])
  | .modeselCurrentUa u => (.modesel, [modeselByte 0xD u])
  | .modeselInvalidE u => (.modesel, [modeselByte 0xE u])
  | .modeselCurrentMa u => (.modesel, [modeselByte 0xF u])
  | .ovrFreq b => (.ovr, [rawInByte b, 10, 0x1])
  | .ovrDutyBit b => (.ovr, [rawInByte b, 7, 0x8])
  | .ovrDutyEq b => (.ovr, [rawInByte b, 7, 0xF])

/-- Byte `k` of a number, byte 0 the least significant. -/
def byteOfNat (w k : Nat) : Byte := BitVec.ofNat 8 (w >>> (8 * k))

/-- The bytes of a number, lowest first. -/
def bytesOfNat (w n : Nat) : List Byte := (List.range n).map (byteOfNat w)

/-- The instruction as an option. -/
def Decoded.toOption : Decoded → Option Instr
  | .instr i => some i
  | .reject _ => none

/-- The MODESEL byte of an opcode-table word. The table numbers a row's match as bits 3..0, over `mode_res`
alone (R88); in the 7-bit address they are bits 6..3. Bits 6..4 of the word stand for the unit index, which
the table gives no bits (log entry 7). -/
def modeselTableByte (w : Nat) : Nat := w / 128 % 2 * 128 + w % 16 * 8 + w / 16 % 8

/-- The instruction the decoder reads from the bits of an opcode-table row: a MODESEL row has 4 bits (one
byte), the DECODE row 16 (its frame bytes then 0; 128 give the frame too), an OVR row 24 in this
model's container (log entry 7). -/
def decodeTableWord (nbits w : Nat) : Option Instr :=
  if nbits ≤ 8 then (decodeAs .modesel (bytesOfNat (modeselTableByte (w % 2 ^ nbits)) 1)).toOption
  else if nbits = 16 ∨ nbits = 128 then (decodeAs .frame14 (bytesOfNat (w % 2 ^ nbits) 16)).toOption
  else if nbits = 24 then (decodeAs .ovr (bytesOfNat (w % 2 ^ nbits) 3)).toOption
  else none

end Sys2Proof
end

