-- ==== Sys2Proof/Machine/Fetch.lean ====
section
/-! DEFINITION. Which operation of the opcode table the DECODE in flight presents next, as the bytes of its
format: the selectors in the pipeline order of spec/00_scope.md R2 and spec/42_mode_lut.md R140 while LATENCY
passes (log entry 1), COMPLETE when it has passed (spec/70_reset_and_hazards.md R263); and how
an operation is put where the next step fetches it (log entry 8). -/

namespace Sys2Proof.Machine

/-- The completion: the captured length and bytes (R263). -/
def fetchComplete (s : State) : Format × List Byte := (.frame14, frameBytes s.capLen s.capByte)

/-- The table address: the resolved mode on the wires and the frame's unit index (R150). -/
def fetchLookup (s : State) : Format × List Byte :=
  (.modesel, [modeselByte s.wires.modeRes (extUnitIndex (maskFrame s.capByte))])

/-- The frequency override, if raw[10] fires it; else what comes after it. -/
def fetchFreq (s : State) : Format × List Byte :=
  if firesFreq (maskFrame s.capByte)[10] then (.ovr, [rawInByte (maskFrame s.capByte)[10], 10, 0x1])
  else fetchLookup s

/-- The second duty term, if raw[7] fires it; else what comes after it. -/
def fetchDutyEq (s : State) : Format × List Byte :=
  if firesDutyEq (maskFrame s.capByte)[7] then (.ovr, [rawInByte (maskFrame s.capByte)[7], 7, 0xF])
  else fetchFreq s

/-- The first duty term, if raw[7] fires it; else what comes after it. -/
def fetchDutyBit (s : State) : Format × List Byte :=
  if firesDutyBit (maskFrame s.capByte)[7] then (.ovr, [rawInByte (maskFrame s.capByte)[7], 7, 0x8])
  else fetchDutyEq s

/-- The bytes of the next operation of the DECODE in flight: COMPLETE once LATENCY has passed, wherever the
selectors stand (R263); until then the next selector, and nothing once all have run. -/
def fetch (s : State) : Option (Format × List Byte) :=
  if s.countdown = 0 then some (fetchComplete s)
  else
    match s.stage with
    | .ovrDutyBit => some (fetchDutyBit s)
    | .ovrDutyEq => some (fetchDutyEq s)
    | .ovrFreq => some (fetchFreq s)
    | .lookup => some (fetchLookup s)
    | .complete => none

/-- The operation in flight, decoded. -/
def fetched (s : State) : Option Decoded := (fetch s).map fun b => decodeAs b.1 b.2

/-- A DECODE in flight that stands at a stage with given steps of LATENCY left and no reset. -/
def inFlight (len : Len) (f : Frame) (st : Stage) (left : Nat) (s : State) : State :=
  { acceptOp len f s with stage := st, countdown := left, port := { s.port with rst := false } }

/-- The frame of zeros but for one byte. -/
def oneByteFrame (i : Fin 14) (b : Byte) : Frame := (Vector.replicate 14 (0 : Byte)).set i b

/-- The state in which the next step fetches a given instruction: a DECODE in flight whose frame presents
it, with a step of LATENCY left for a selector. A DECODE is its own frame; a MODESEL row is a frame with
that mode nibble and unit index; an override is a frame with that raw byte at the offset the row tests. -/
def placeInstr (i : Instr) (s : State) : State :=
  match i, encode i with
  | .decode len f, _ => inFlight len f .complete 0 s
  | .ovrFreq b, _ => inFlight 14 (oneByteFrame 10 (rawInByte b)) .ovrFreq 1 s
  | .ovrDutyBit b, _ => inFlight 14 (oneByteFrame 7 (rawInByte b)) .ovrDutyBit 1 s
  | .ovrDutyEq b, _ => inFlight 14 (oneByteFrame 7 (rawInByte b)) .ovrDutyEq 1 s
  | _, (_, [b]) => inFlight 14 ((oneByteFrame 0 (b &&& 0x7)).set 6 (b >>> 3)) .lookup 1 s
  | _, _ => s

end Sys2Proof.Machine
end

