-- ==== Sys2Proof/Machine/Step.lean ====
section
/-! DEFINITION. One step of the block (spec/70_reset_and_hazards.md R260 to R263). The pins in the state
are the host's; between steps the host may change them (log entry 4). -/

namespace Sys2Proof.Machine

/-- One step. RESET whenever the reset signal is up (R260, R261; log entry 14). A busy block runs the
operation it fetches, after the tick of LATENCY: COMPLETE as soon as none is left (R263), before that a
selector or nothing (log entries 1 and 3). An idle block accepts a request if it is ready (R262). A step
that is not enabled changes nothing (R262). -/
def step (s : State) : Host.Outcome State Fault Refusal :=
  if s.port.rst then .next (resetOp s)
  else if s.busy then
    match fetched s with
    | none => .next (tickOp s)
    | some (.instr i) => exec i (tickOp s)
    | some (.reject _) => .refused .undecodedOperation
  else if acceptEnabled s then .next (acceptOp s.port.inLen s.port.inByte s)
  else .next s

/-- The instruction of an opcode-table word put where the next step fetches it (log entry 8). -/
def State.withFetchWord (s : State) (nbits w : Nat) : State :=
  match decodeTableWord nbits w with
  | some i => placeInstr i s
  | none => s

end Sys2Proof.Machine
end

