-- ==== Sys2Proof/Machine/HostSide.lean ====
section
/-! DEFINITION. The host's side of the interface (spec/48_host_interface.md R210 to R214;
spec/70_reset_and_hazards.md R265, R271): driving the pins between steps, and the transaction scripts of
spec/30_encoding.md R86 and R87, which hold their requests by construction. -/

namespace Sys2Proof.Machine

/-- One outcome after another. -/
def andThen {σ τ : Type} (o : Host.Outcome σ Fault Refusal) (k : σ → Host.Outcome τ Fault Refusal) :
    Host.Outcome τ Fault Refusal :=
  match o with
  | .next s => k s
  | .fault r => .fault r
  | .refused r => .refused r

/-- The host at the pins of a block: the block, and whether the host has raised a request the block has not
accepted yet (R271 binds it until then). The second is the host's duty, no element of the block. -/
structure Bench where
  block : State
  waiting : Bool
deriving DecidableEq, Repr

/-- A step of the block under the host: its ACCEPT ends the host's duty to hold the request (R210, R271). -/
def benchStep (b : Bench) : Host.Outcome Bench Fault Refusal :=
  andThen (step b.block) fun t =>
    .next { block := t, waiting := b.waiting && !(acceptEnabled b.block && !b.block.port.rst) }

/-- Two settings of the pins hold the same request: `req`, `in_len` and `in_byte` (R271). The reset signal is
no part of it (R210). -/
def sameRequest (p q : Port) : Bool := p.req == q.req && p.inLen == q.inLen && p.inByte == q.inByte

/-- The host drives the pins. From the moment it raises `req` until the block accepts, it must hold `req`,
`in_len` and `in_byte` (R271), while it may move the reset signal at any time (R210); a host that changes
them has no meaning in the model (spec/92_eei_decisions.md D17) and is refused. DESIGN CHOICE (log entry 17): a
`req` left at 1 after its request was accepted is not raised anew, so the host need not hold it, although
the block accepts it again by its level (R262). -/
def hostDrive (p : Port) (b : Bench) : Host.Outcome Bench Fault Refusal :=
  if b.waiting && !sameRequest p b.block.port then .refused .inputsNotHeld
  else .next { block := { b.block with port := p }, waiting := b.waiting || (p.req && !b.block.port.req) }

/-- The length the host drives for a number of received bytes, saturated at 0xFFFF (R21, R212). -/
def satLen (n : Nat) : Len := if n ≤ 65535 then BitVec.ofNat 16 n else 0xFFFF

/-- The first 14 received bytes, the rest 0 (R86). -/
def padFrame (received : List Byte) : Frame := Vector.ofFn fun i => (received[i.val]?).getD 0

/-- The pins of a DECODE request. -/
def requestPort (len : Len) (f : Frame) : Port where
  rst := false
  req := true
  inLen := len
  inByte := f

/-- The host asks for a DECODE of the bytes it received; a length port that is not their saturated number
is refused (R212, D2). It must hold the request from then on, also where `req` was left at 1 (log entry
17). -/
def hostRequest (received : List Byte) (inLen : Len) (b : Bench) : Host.Outcome Bench Fault Refusal :=
  if inLen = satLen received.length then
    andThen (hostDrive { requestPort inLen (padFrame received) with rst := b.block.port.rst } b) fun c =>
      .next { c with waiting := true }
  else .refused .lengthNotSaturated

/-- A byte of odd parity from its low 7 bits (R87 `par`). -/
def withParity (v : RawByte) : Byte := BitVec.ofBool (!foldParity v) ++ v

/-- `DECODE.F` (R87): the frame with given fields, 0x30 filler and a 0x0D 0x0A tail. -/
def frameOfFields (u : UnitIndex) (d : Vector Nibble 5) (m i : Nibble) (ul : Bool) (t : Nibble) : Frame :=
  #v[withParity (0x6#4 ++ u), withParity (0x3#3 ++ d[0]), withParity (0x3#3 ++ d[1]),
    withParity (0x3#3 ++ d[2]), withParity (0x3#3 ++ d[3]), withParity (0x3#3 ++ d[4]),
    withParity (0x3#3 ++ m), withParity (0x3#3 ++ i), withParity 0x30,
    withParity (0x3#3 ++ BitVec.ofBool ul ++ 0#3), withParity (0x3#3 ++ t), withParity 0x30,
    withParity 0x0D, withParity 0x0A]

/-- `DECODE.F!k` (R87): bit 7 of byte `k` inverted. -/
def flipParity (f : Frame) (k : Fin 14) : Frame := f.set k (f[k] ^^^ 0x80)

/-- The transactions of a host script (R86). -/
inductive Transaction where
  | reset
  | decode (len : Len) (f : Frame)
deriving DecidableEq, Repr

/-- Steps while a DECODE is in flight, at most a given number. -/
def runBusy : Nat → State → Host.Outcome State Fault Refusal
  | 0, s => .next s
  | n + 1, s => if s.busy then andThen (step s) (runBusy n) else .next s

/-- Waiting for the completion of the DECODE in flight, if there is one: what is left of LATENCY, and
COMPLETE. -/
def finish (s : State) : Host.Outcome State Fault Refusal := runBusy (s.countdown + 1) s

/-- One transaction and what the host observes of it: nothing of a RESET, RES of a DECODE (R86, R265). A
request that would wait for ever is refused. -/
def transact (t : Transaction) (s : State) : Host.Outcome (State × List Result) Fault Refusal :=
  match t with
  | .reset =>
    andThen (step { s with port := { s.port with rst := true } }) fun s1 =>
      .next ({ s1 with port := Port.idle }, [])
  | .decode len f =>
    andThen (finish { s with port := requestPort len f }) fun s1 =>
      if s1.ready then
        andThen (step s1) fun s2 =>
          andThen (finish { s2 with port := Port.idle }) fun s3 => .next (s3, [s3.res])
      else .refused .requestNotAccepted

/-- The scripts whose end R265 defines: the last transaction is a DECODE. -/
def scriptEnds (ts : List Transaction) : Bool :=
  match ts.getLast? with
  | some (.decode _ _) => true
  | some .reset => false
  | none => false

/-- A host script: the last state and the RES of each completed DECODE, in order (R265). DESIGN CHOICE (log
entry 19): R265 counts a script as ended only where it has a DECODE and no RESET after the last one, and does
not say what any other is observed to do; the model answers it the same way, with the RES of the DECODEs it
holds. `scriptEnds` says which scripts R265 speaks of. -/
def runScript : List Transaction → State → Host.Outcome (State × List Result) Fault Refusal
  | [], s => .next (s, [])
  | t :: ts, s =>
    andThen (transact t s) fun a =>
      andThen (runScript ts a.1) fun b => .next (b.1, a.2 ++ b.2)

end Sys2Proof.Machine
end

