-- ==== Sys2Proof/Machine/Cluster.lean ====
section
/-! DEFINITION. Several decoder instances sharing one table (spec/20_memory.md R63,
spec/60_exceptions.md R240). No order holds between instances: the caller says which one moves (log
entry 12). -/

namespace Sys2Proof.Machine

/-- The instances, each with its own `busy`, `valid`, `cap_*` and RES. The build and the table stand in each
of them and are the same ones (`clusterShares`). -/
abbrev Cluster := List State

/-- `N_INST` instances, at least one (R8, R240), built with the same parameters and started together at
reset. Parameters that fail R80 or R149 are refused, as they are for one block (`boot`). -/
def clusterReset (p : Params) (n : ℕ+) : Host.Outcome Cluster Fault Refusal :=
  andThen (boot p) fun s => .next (List.replicate n s)

/-- Every instance is built with the same parameters and holds the one shared table. -/
def clusterShares (p : Params) (t : Memory) (c : Cluster) : Prop := ∀ s ∈ c, s.params = p ∧ s.table = t

/-- The reset signal of the instances. DESIGN CHOICE (log entry 12): it is one signal common to all, up if it is
up at the port of any of them, since they start together at reset (R240) and share the table it loads. -/
def clusterInReset (insts : Cluster) : Bool := insts.any fun s => s.port.rst

/-- A step of the instances. While the common reset signal is up every instance is reset (R240, R260). Else
instance `k` takes a step and the others stand still (R63). -/
def clusterStep (k : Nat) (insts : Cluster) : Host.Outcome Cluster Fault Refusal :=
  if clusterInReset insts then .next (insts.map resetOp)
  else
    match insts[k]? with
    | none => .next insts
    | some s =>
      match step s with
      | .next t => .next (insts.set k t)
      | .fault r => .fault r
      | .refused r => .refused r

end Sys2Proof.Machine
end

