-- ==== Sys2Proof/Machine/FpValue.lean ====
section
/-! DEFINITION. The derived floating-point value (spec/43_scalar.md R175, R176) for a format `FP_FORMAT`
taken as an argument (R8, D12), and the default format, IEEE 754 binary64 with round to nearest even
(spec/93_implementation_defined.md I4; PRESUMED, log entry 10). `value` is no field of RES (R25): the host
computes it (R214). -/

namespace Sys2Proof.Machine

/-- A floating-point format: its values, the conversion of an integer, division and negation. -/
structure FpFormat where
  Val : Type
  ofNat : Nat → Val
  div : Val → Val → Val
  neg : Val → Val

/-- FPVALUE (R175): divide, then negate if the sign is set. -/
def fpValue (F : FpFormat) (m : Measurement) : F.Val :=
  let v := F.div (F.ofNat m.magnitude.toNat) (F.ofNat m.scale.toNat)
  if m.negative then F.neg v else v

/-- A quotient of natural numbers to the nearest integer, ties to even. -/
def roundHalfEven (n d : Nat) : Nat :=
  let q := n / d
  let r := n % d
  if 2 * r < d then q else if d < 2 * r then q + 1 else q + q % 2

/-- Whether `2 ^ e` is at most `num / den`. -/
def pow2Le (e : Int) (num den : Nat) : Bool :=
  decide (2 ^ e.toNat * den ≤ num * 2 ^ (-e).toNat)

/-- The magnitude bits of the binary64 nearest a positive rational `num / den`: the exponent field and the
52-bit fraction as one number, infinity on overflow. -/
def binary64Round (num den : Nat) : Nat :=
  let e0 : Int := (num.log2 : Int) - (den.log2 : Int)
  let e1 : Int := if pow2Le e0 num den then e0 else e0 - 1
  let e : Int := if e1 < -1022 then -1022 else e1
  let m := roundHalfEven (num * 2 ^ (52 - e).toNat) (den * 2 ^ (e - 52).toNat)
  let bits := (e + 1022).toNat * 2 ^ 52 + m
  if 0x7FF * 2 ^ 52 ≤ bits then 0x7FF * 2 ^ 52 else bits

/-- A binary64 from its sign and its magnitude bits. -/
def binary64Of (sign : Bool) (bits : Nat) : BitVec 64 := BitVec.ofBool sign ++ BitVec.ofNat 63 bits

/-- The sign bit. -/
def binary64Sign (b : BitVec 64) : Bool := b.getLsbD 63

/-- The exponent field. -/
def binary64Exp (b : BitVec 64) : Nat := (b.extractLsb' 52 11).toNat

/-- The fraction field. -/
def binary64Frac (b : BitVec 64) : Nat := (b.extractLsb' 0 52).toNat

/-- Not a number. -/
def binary64IsNan (b : BitVec 64) : Bool := binary64Exp b == 0x7FF && binary64Frac b != 0

/-- Infinite. -/
def binary64IsInf (b : BitVec 64) : Bool := binary64Exp b == 0x7FF && binary64Frac b == 0

/-- Zero of either sign. -/
def binary64IsZero (b : BitVec 64) : Bool := binary64Exp b == 0 && binary64Frac b == 0

/-- The magnitude of a finite value in units of 2 ^ -1074. -/
def binary64Units (b : BitVec 64) : Nat :=
  if binary64Exp b = 0 then binary64Frac b
  else (2 ^ 52 + binary64Frac b) * 2 ^ (binary64Exp b - 1)

/-- The quiet NaN the model gives (no decode reaches it; log entry 10). -/
def binary64Nan : BitVec 64 := 0x7FF8000000000000

/-- An integer as binary64. -/
def binary64OfNat (n : Nat) : BitVec 64 := if n = 0 then 0 else binary64Of false (binary64Round n 1)

/-- Division of binary64 values. -/
def binary64Div (a b : BitVec 64) : BitVec 64 :=
  let sign := binary64Sign a != binary64Sign b
  if binary64IsNan a || binary64IsNan b then binary64Nan
  else if binary64IsInf a then
    if binary64IsInf b then binary64Nan else binary64Of sign (0x7FF * 2 ^ 52)
  else if binary64IsInf b then binary64Of sign 0
  else if binary64IsZero b then
    if binary64IsZero a then binary64Nan else binary64Of sign (0x7FF * 2 ^ 52)
  else if binary64IsZero a then binary64Of sign 0
  else binary64Of sign (binary64Round (binary64Units a) (binary64Units b))

/-- Negation of a binary64 value: the sign bit inverted. -/
def binary64Neg (a : BitVec 64) : BitVec 64 := a ^^^ 0x8000000000000000

/-- The default `FP_FORMAT` (I4). -/
def binary64 : FpFormat where
  Val := BitVec 64
  ofNat := binary64OfNat
  div := binary64Div
  neg := binary64Neg

end Sys2Proof.Machine
end

