-- ==== Sys2Proof/Machine/Packed.lean ====
section
/-! DEFINITION. The packed layout of the outputs (spec/10_state.md R28); every bit not listed reads as 0. -/

namespace Sys2Proof.Machine

/-- The numeric status codes (R27, R230). -/
def statusCode : Status → BitVec 2
  | .ok => 0
  | .invalidLength => 1
  | .parityMismatch => 2
  | .unknownModeOrUnit => 3

/-- STATUSW: [0] valid, [2:1] status, [3] ready, [4] busy (R28). -/
def statusWord (s : State) : BitVec 8 :=
  0#3 ++ BitVec.ofBool s.busy ++ BitVec.ofBool s.ready ++ statusCode s.res.status ++ BitVec.ofBool s.valid

/-- MEASW (R28). -/
def measWord (m : Measurement) : BitVec 64 :=
  0#15 ++ BitVec.ofBool m.ac ++ BitVec.ofBool m.dc ++ BitVec.ofBool m.duty ++ BitVec.ofBool m.freq ++
    BitVec.ofBool m.underload ++ BitVec.ofBool m.overload ++ BitVec.ofBool m.negative ++ m.magnitude ++
    m.scale ++ m.unitId ++ m.mode

/-- DIAGW (R28). -/
def diagWord (d : Diagnostic) : BitVec 64 :=
  0#8 ++ d.parOk ++ BitVec.ofBool d.lutHit ++ BitVec.ofBool d.dutyCond ++ d.modeRes ++ d.digit[4] ++
    d.digit[3] ++ d.digit[2] ++ d.digit[1] ++ d.digit[0] ++ BitVec.ofBool d.underload ++ d.info ++ d.typ ++
    d.modeBase ++ d.unitIndex

/-- RAWW[i]: [6:0] d_raw[i], [7] 0 (R28). -/
def rawWord (d : Diagnostic) (i : Fin 14) : BitVec 8 := 0#1 ++ d.raw[i]

end Sys2Proof.Machine
end

