-- ==== Sys2Proof/Safety.lean ====
section
/-! DEFINITION. What claims rest on: when a result may be trusted (spec/70_reset_and_hazards.md R270,
R272) and the invariants of the block (spec/10_state.md R34, R35; spec/44_result_mux.md R191, R196), and what a
script observes (spec/70_reset_and_hazards.md R265). -/

namespace Sys2Proof.Machine

/-- RES as the result of the DECODE accepted last: only with `valid = 1` (R270). -/
def currentResult (s : State) : Option Result := if s.valid then some s.res else none

/-- A measurement that may be acted on: current, and with status OK (R272). -/
def trustedMeasurement (s : State) : Option Measurement :=
  match currentResult s with
  | some r => if r.status = .ok then some r.meas else none
  | none => none

/-- `busy` and `valid` are never both 1 (R34). -/
def busyValidExclusive (s : State) : Prop := ¬(s.busy = true ∧ s.valid = true)

/-- With `valid = 1`, RES is `decode` of the DECODE accepted last (R34, R35). -/
def resultIsDecode (s : State) : Prop :=
  s.valid = true → s.res = decodeFrame s.params s.capLen s.capByte s.table

/-- `T` holds the `LUT_INIT` the block was built with (R32). -/
def tableIsLutInit (s : State) : Prop := s.table = loadTable s.params.lutInit

/-- The conditions of R80 and R149 (a) to (g) on the parameters, as propositions. -/
def Params.MeetsConditions (p : Params) : Prop :=
  (∀ m n : Mode, p.modeCode m = p.modeCode n → m = n) ∧ (∀ m : Mode, p.modeCode m ≠ 0xA) ∧
  (∀ m : Mode, ∃ l : Nat, 1 ≤ l ∧ l ≤ 8 ∧
    ∀ j : UnitIndex, lutPresent (p.slot (p.modeCode m) j) = true ↔ j.toNat < l) ∧
  (∀ c : Nibble, (∀ m : Mode, p.modeCode m ≠ c) → ∀ j : UnitIndex, lutPresent (p.slot c j) = false) ∧
  (∀ a : Fin 128, lutPresent p.lutInit[a] = true → 1 ≤ (lutScale p.lutInit[a]).toNat) ∧
  (∀ a : Fin 128, lutPresent p.lutInit[a] = false →
    lutUnitId p.lutInit[a] = 0 ∧ lutScale p.lutInit[a] = 0) ∧
  (∀ a : Fin 128, lutPresent p.lutInit[a] = true →
    (lutUnitId p.lutInit[a] = 0 ↔ a.val = p.emptyUnitSlot.toNat) ∧
    (lutUnitId p.lutInit[a] ≠ 0 → p.unitString (lutUnitId p.lutInit[a]) ≠ "")) ∧
  (∀ a : Fin 128, a.val = p.emptyUnitSlot.toNat → lutPresent p.lutInit[a] = true) ∧
  lutScale (p.slot 0xB 4) = 100 ∧ lutScale (p.slot 0x6 0) = 1000

/-- The mode on the wires once the duty terms have been looked at, before the frequency override. -/
def modeAfterDuty (p : Params) (duty : Bool) (r : RawFrame) : Nibble :=
  if duty && !flagFreq r then p.modeCode .duty else extMode r

/-- The wires of a DECODE in flight agree with the captured frame as far as the pipeline has come; a
DECODE of a bad length runs no selector (R105, R140, R150, R191; log entry 1). -/
def wiresAgree (s : State) : Prop :=
  let r := maskFrame s.capByte
  let w := frameWord s.params r s.table
  s.busy = true →
    if lenOk s.capLen then
      match s.stage with
      | .ovrDutyBit => s.wires.dutyCond = false ∧ s.wires.modeRes = extMode r
      | .ovrDutyEq =>
        s.wires.dutyCond = (extInfo r).getLsbD 3 ∧
          s.wires.modeRes = modeAfterDuty s.params ((extInfo r).getLsbD 3) r
      | .ovrFreq =>
        s.wires.dutyCond = dutyCond (extInfo r) ∧
          s.wires.modeRes = modeAfterDuty s.params (dutyCond (extInfo r)) r
      | .lookup =>
        s.wires.dutyCond = dutyCond (extInfo r) ∧ s.wires.modeRes = resolvedMode s.params r
      | .complete =>
        s.wires.dutyCond = dutyCond (extInfo r) ∧ s.wires.modeRes = resolvedMode s.params r ∧
          s.wires.lutHit = lutPresent w ∧ s.wires.unitId = lutUnitId w ∧ s.wires.scale = lutScale w
    else s.stage = .complete

/-- The block is built with parameters that pass the check of R80 and R149 (R149, R266). -/
def builtAdmitted (s : State) : Prop := s.params.admitted = true

/-- The invariant of the block. -/
def Inv (s : State) : Prop :=
  Memory.wf s.table = true ∧ busyValidExclusive s ∧ resultIsDecode s ∧ wiresAgree s

/-- What a host observes of a script on a block built with `p` whose table is `t` (R61, R265): the decode of
each request in order, under the table as it stands; a RESET loads `LUT_INIT`. -/
def scriptResults (p : Params) : Memory → List Transaction → List Result
  | _, [] => []
  | _, .reset :: ts => scriptResults p (loadTable p.lutInit) ts
  | t, .decode len f :: ts => decodeFrame p len f t :: scriptResults p t ts

end Sys2Proof.Machine
end

