-- ==== Sys2Proof/Certificates/Slice0/Obligations.lean ====
section
/-! DEFINITION. The statements about the UT61E decoder core. Each docstring names the rule of spec/ it
formalises, or says what of it is the model's own (with the log entry). -/

open Sys2Proof Sys2Proof.Machine

/-! ### Encodings -/

/-- Every well-formed instruction is decoded back from its bytes (R88, R79, R83: FRAME14 is the length and
the 14 bytes, MODESEL the address `{mode_res, unit_index}`; that bytes hold them, and the bytes of OVR, are log
entry 7). -/
def Obligations.DecodeOfEncodeIsIdentity : Prop :=
  ∀ i : Instr, WellFormed i = true → decodeAs (encode i).1 (encode i).2 = .instr i

/-- Whatever decodes is well formed, and is the encoding of what it decodes to (R88; log entry 7). -/
def Obligations.EncodeOfDecodeIsIdentity : Prop :=
  ∀ (fmt : Format) (bytes : List Byte) (i : Instr),
    decodeAs fmt bytes = .instr i → encode i = (fmt, bytes) ∧ WellFormed i = true

/-- A few words of the opcode table decode to their rows, and the MODESEL addresses 0x5C and 0x30 to VOLTAGE 4
and CAPACITANCE 0 (R88, R83; R150 and V2 give the two addresses; log entry 7 for the bytes of a FRAME14 and
an OVR row). -/
def Obligations.TableWordsDecodeToTheirRows : Prop :=
  decodeTableWord 16 0x000E = some (.decode 14 (Vector.replicate 14 0)) ∧
    decodeTableWord 8 0xB = some (.modeselVoltage 0) ∧
    decodeTableWord 8 0xA = some (.modeselInvalidA 0) ∧
    decodeAs .modesel [0x5C] = .instr (.modeselVoltage 4) ∧
    decodeAs .modesel [0x30] = .instr (.modeselCapacitance 0) ∧
    decodeAs .ovr [0x39, 10, 0x1] = .instr (.ovrFreq 0x39) ∧
    decodeAs .ovr [0x38, 10, 0x1] = .reject .selectorNotFired ∧
    decodeAs .ovr [0x38, 7, 0xF] = .instr (.ovrDutyEq 0x38) ∧
    decodeAs .ovr [0x39, 7, 0xF] = .reject .selectorNotFired ∧
    decodeAs .ovr [0x39, 7, 0x8] = .instr (.ovrDutyBit 0x39)

/-! ### The parity validator -/

/-- R191: a length other than 14 gives INVALID_LENGTH and zeros, whatever the bytes. -/
def Obligations.OtherLengthsAreInvalidLength : Prop :=
  ∀ (s : State) (len : Len) (f : Frame), len.toNat ≠ 14 →
    ∃ t, exec (.decode len f) s = .next t ∧ t.res.status = .invalidLength ∧
      t.res.meas = Measurement.zero ∧ t.res.diag = Diagnostic.zero ∧
      ∀ g : Frame, exec (.decode len g) s = .next t

/-- R101: the fold is the exclusive or of all eight bits, with the rule's corner cases; R106: a byte passes
exactly when bit 7 is the odd-parity bit of the low seven. -/
def Obligations.ParityFoldIsXorOfAllBits : Prop :=
  (∀ b : Byte, parOk b = (b.getLsbD 7 ^^ b.getLsbD 6 ^^ b.getLsbD 5 ^^ b.getLsbD 4 ^^ b.getLsbD 3 ^^
    b.getLsbD 2 ^^ b.getLsbD 1 ^^ b.getLsbD 0)) ∧
    (∀ b : Byte, parOk b = true ↔ b.getLsbD 7 = (true ^^ (b.getLsbD 6 ^^ b.getLsbD 5 ^^ b.getLsbD 4 ^^
      b.getLsbD 3 ^^ b.getLsbD 2 ^^ b.getLsbD 1 ^^ b.getLsbD 0))) ∧
    parOk 0x00 = false ∧ parOk 0xFF = false ∧ parOk 0x80 = true ∧ parOk 0x01 = true ∧
    parOk 0x7F = true ∧ parOk 0xB5 = true ∧ parOk 0x35 = false

/-- R103: the fold of the sign-extended byte gives the same verdict. -/
def Obligations.SignedBytesGiveTheSameParity : Prop :=
  ∀ b : Byte, foldParity (b.signExtend 32) = parOk b

/-- R102: bit i of `d_par_ok` is byte i's verdict, one failing byte is enough, and inverting bit 7 of one
byte changes exactly that byte's bit. -/
def Obligations.ParityVectorPerByte : Prop :=
  ∀ (s : State) (f : Frame), ∃ t, exec (.decode 14 f) s = .next t ∧
    (∀ i : Fin 14, t.res.diag.parOk.getLsbD i = parOk f[i]) ∧
    ((∃ i : Fin 14, parOk f[i] = false) → t.res.status = .parityMismatch) ∧
    ((∀ i : Fin 14, parOk f[i] = true) →
      t.res.diag.parOk = 0x3FFF ∧ t.res.status ≠ .parityMismatch) ∧
    ∀ k i : Fin 14,
      (parVec (flipParity f k)).getLsbD i = (t.res.diag.parOk.getLsbD i ^^ decide (i = k))

/-- R104: masking keeps the low 7 bits whatever the verdict; frames that differ only in bit 7 of some bytes
differ only in the parity vector, the status and what the status gates. -/
def Obligations.MaskKeepsLowSevenBits : Prop :=
  (∀ (s : State) (f : Frame), ∃ t, exec (.decode 14 f) s = .next t ∧
    ∀ i : Fin 14, t.res.diag.raw[i].toNat = f[i].toNat % 128) ∧
  ∀ (s : State) (f g : Frame), (∀ i : Fin 14, f[i].toNat % 128 = g[i].toNat % 128) →
    ∃ t u, exec (.decode 14 f) s = .next t ∧ exec (.decode 14 g) s = .next u ∧
      { t.res.diag with parOk := 0 } = { u.res.diag with parOk := 0 } ∧
      (t.res.status = u.res.status → t.res.meas = u.res.meas)

/-! ### The field extractor -/

/-- R120 to R125: each extracted field as a number of the captured byte it stands in. -/
def Obligations.FieldsAreLowBitsOfTheirBytes : Prop :=
  ∀ (s : State) (f : Frame), ∃ t, exec (.decode 14 f) s = .next t ∧
    t.res.diag.typ.toNat = f[10].toNat % 16 ∧ t.res.diag.info.toNat = f[7].toNat % 16 ∧
    t.res.diag.underload = f[9].getLsbD 3 ∧ t.res.diag.modeBase.toNat = f[6].toNat % 16 ∧
    t.res.diag.unitIndex.toNat = f[0].toNat % 8 ∧
    t.res.diag.digit[0].toNat = f[1].toNat % 16 ∧ t.res.diag.digit[1].toNat = f[2].toNat % 16 ∧
    t.res.diag.digit[2].toNat = f[3].toNat % 16 ∧ t.res.diag.digit[3].toNat = f[4].toNat % 16 ∧
    t.res.diag.digit[4].toNat = f[5].toNat % 16

/-- R84: frames with the same used bits give the same diagnostics but for the raw bank and the parity
vector; if parity passes in both or fails in both, the same status and measurement. -/
def Obligations.IgnoredBitsChangeNothingElse : Prop :=
  ∀ (s : State) (f g : Frame), f[0].toNat % 8 = g[0].toNat % 8 →
    (∀ i : Fin 14, (1 ≤ i.val ∧ i.val ≤ 7) ∨ i.val = 10 → f[i].toNat % 16 = g[i].toNat % 16) →
    f[9].getLsbD 3 = g[9].getLsbD 3 →
    ∃ t u, exec (.decode 14 f) s = .next t ∧ exec (.decode 14 g) s = .next u ∧
      { t.res.diag with parOk := 0, raw := Vector.replicate 14 0 } =
        { u.res.diag with parOk := 0, raw := Vector.replicate 14 0 } ∧
      (((∀ i : Fin 14, parOk f[i] = true) ↔ ∀ i : Fin 14, parOk g[i] = true) →
        t.res.status = u.res.status ∧ t.res.meas = u.res.meas)

/-! ### Mode resolution and the lookup table -/

/-- R140, R143: the resolved mode and the duty condition from the captured bytes; on OK they are `m_mode` and
`m_duty`. -/
def Obligations.ModeResolution : Prop :=
  ∀ (s : State) (f : Frame), ∃ t, exec (.decode 14 f) s = .next t ∧
    t.res.diag.dutyCond = (f[7].getLsbD 3 || decide (f[7].toNat % 16 = 8)) ∧
    (t.res.diag.modeRes =
      if f[10].getLsbD 0 then s.params.modeCode .frequency
      else if t.res.diag.dutyCond then 0x8
      else t.res.diag.modeBase) ∧
    (t.res.status = .ok →
      t.res.meas.mode = t.res.diag.modeRes ∧ t.res.meas.duty = t.res.diag.dutyCond)

/-- R144: for all 16 values of `info` the duty condition is `info[3]`, although its two terms differ. -/
def Obligations.DutyConditionIsInfoBitThree : Prop :=
  (∀ info : Nibble, dutyCond info = info.getLsbD 3) ∧
    (0b1001#4).getLsbD 3 ≠ (0b1001#4 == 0b1000#4)

/-- R145: an override replaces the base mode before the lookup: with `type[0] = 1` the mode is FREQUENCY
whatever the mode byte holds, and a frame of good parity fails exactly if FREQUENCY has no entry at its unit
index; 0xA with `info[3] = 1` and `type[0] = 0` resolves to DUTY. -/
def Obligations.OverrideReplacesInvalidBase : Prop :=
  (∀ (s : State) (f : Frame) (u : UnitIndex), f[10].getLsbD 0 = true → u.toNat = f[0].toNat % 8 →
    ∃ t, exec (.decode 14 f) s = .next t ∧ t.res.diag.modeRes = s.params.modeCode .frequency ∧
      ((∀ i : Fin 14, parOk f[i] = true) → t.res.status =
        if lutPresent (lutRead s.table (lutAddress (s.params.modeCode .frequency) u)) then .ok
        else .unknownModeOrUnit)) ∧
  ∀ (s : State) (f : Frame), f[10].getLsbD 0 = false → f[7].getLsbD 3 = true → f[6].toNat % 16 = 0xA →
    ∃ t, exec (.decode 14 f) s = .next t ∧ t.res.diag.modeBase = 0xA ∧ t.res.diag.modeRes = 0x8

/-- R146: a base code of DUTY or FREQUENCY selects that mode with no override flag. -/
def Obligations.BaseCodeSelectsModeWithoutFlag : Prop :=
  ∀ (s : State) (f : Frame) (m : Mode), m = .duty ∨ m = .frequency →
    f[10].getLsbD 0 = false → f[7].getLsbD 3 = false →
    f[6].toNat % 16 = (s.params.modeCode m).toNat →
    parAll f = true → lutPresent (frameWord s.params (maskFrame f) s.table) = true →
    ∃ t, exec (.decode 14 f) s = .next t ∧ t.res.status = .ok ∧
      t.res.meas.mode = s.params.modeCode m ∧ t.res.meas.freq = false ∧ t.res.meas.duty = false

/-- R150: each MODESEL row reads the word at code * 8 + unit index and puts its fields on the wires (the
wires are the model's own, log entry 1; the rows that name no mode read the table too, log entry 2). -/
def Obligations.ModeselReadsTheTableWord : Prop :=
  ∀ (s : State) (u : UnitIndex) (q : Nibble × Instr),
    q ∈ [(0x0, Instr.modeselCurrentA u), (0x1, .modeselDiode u), (0x2, .modeselFrequency u),
      (0x3, .modeselResistance u), (0x4, .modeselInvalid4 u), (0x5, .modeselContinuity u),
      (0x6, .modeselCapacitance u), (0x7, .modeselInvalid7 u), (0x8, .modeselDuty u),
      (0x9, .modeselInvalid9 u), (0xA, .modeselInvalidA u), (0xB, .modeselVoltage u),
      (0xC, .modeselInvalidC u), (0xD, .modeselCurrentUa u), (0xE, .modeselInvalidE u),
      (0xF, .modeselCurrentMa u)] →
    ∃ t, exec q.2 s = .next t ∧
      t.wires.lutHit = (Memory.read s.table (q.1.toNat * 8 + u.toNat)).getLsbD 20 ∧
      t.wires.unitId.toNat = (Memory.read s.table (q.1.toNat * 8 + u.toNat)).toNat / 2 ^ 16 % 16 ∧
      t.wires.scale.toNat = (Memory.read s.table (q.1.toNat * 8 + u.toNat)).toNat % 2 ^ 16 ∧
      t.stage = .complete

/-- R140, R143 as the row OVR_FREQ: the resolved mode on the wires becomes FREQUENCY exactly if bit 0 of the
byte is 1 (log entry 1). -/
def Obligations.OvrFreqSelectsFrequency : Prop :=
  ∀ (s : State) (b : RawByte), ∃ t, exec (.ovrFreq b) s = .next t ∧
    t.wires.modeRes = (if b.toNat % 2 = 1 then s.params.modeCode .frequency else s.wires.modeRes) ∧
    t.wires.dutyCond = s.wires.dutyCond ∧ t.stage = .lookup

/-- R140, R142, R143 as the rows OVR_DUTY_BIT and OVR_DUTY_EQ: the duty condition on the wires becomes 1,
and the mode DUTY unless the captured frequency button is set, exactly if the row's term holds (log
entry 1). -/
def Obligations.OvrDutyTermsSelectDuty : Prop :=
  ∀ (s : State) (b : RawByte),
    (∃ t, exec (.ovrDutyBit b) s = .next t ∧ t.stage = .ovrDutyEq ∧
      t.wires.dutyCond = (s.wires.dutyCond || decide (b.toNat / 8 % 2 = 1)) ∧
      t.wires.modeRes =
        if b.toNat / 8 % 2 = 1 ∧ s.capByte[10].getLsbD 0 = false then 0x8 else s.wires.modeRes) ∧
    ∃ t, exec (.ovrDutyEq b) s = .next t ∧ t.stage = .ovrFreq ∧
      t.wires.dutyCond = (s.wires.dutyCond || decide (b.toNat % 16 = 8)) ∧
      t.wires.modeRes =
        if b.toNat % 16 = 8 ∧ s.capByte[10].getLsbD 0 = false then 0x8 else s.wires.modeRes

/-- The frame of the 19 selector rows: only the wires and the stage change. No output, no captured byte,
no table word, nothing the block is built with (R24, R33, R56, R58; wires, stage and the latency count are the
model's own, log entries 1 and 3; the build and the pins stand in the state by log entries 5 and 4). -/
def Obligations.SelectorsChangeOnlyWiresAndStage : Prop :=
  ∀ (s t : State) (u : UnitIndex) (b : RawByte) (i : Instr),
    i ∈ [Instr.modeselCurrentA u, .modeselDiode u, .modeselFrequency u, .modeselResistance u,
      .modeselInvalid4 u, .modeselContinuity u, .modeselCapacitance u, .modeselInvalid7 u, .modeselDuty u,
      .modeselInvalid9 u, .modeselInvalidA u, .modeselVoltage u, .modeselInvalidC u, .modeselCurrentUa u,
      .modeselInvalidE u, .modeselCurrentMa u, .ovrFreq b, .ovrDutyBit b, .ovrDutyEq b] →
    exec i s = .next t →
    t.params = s.params ∧ t.res = s.res ∧ t.ready = s.ready ∧ t.busy = s.busy ∧ t.valid = s.valid ∧
      t.capLen = s.capLen ∧ t.capByte = s.capByte ∧ t.port = s.port ∧ t.countdown = s.countdown ∧
      ∀ a : Nat, Memory.read t.table a = Memory.read s.table a

/-- The frame of the wires: a MODESEL row leaves the mode and the duty condition, an OVR row the three
lookup wires (R140, R150 "Writes"; log entry 1). -/
def Obligations.SelectorsLeaveTheOtherWires : Prop :=
  (∀ (s t : State) (c : Nibble) (u : UnitIndex), exec (modeselOf c u) s = .next t →
    t.wires.modeRes = s.wires.modeRes ∧ t.wires.dutyCond = s.wires.dutyCond) ∧
  ∀ (s t : State) (b : RawByte) (i : Instr), i ∈ [Instr.ovrFreq b, .ovrDutyBit b, .ovrDutyEq b] →
    exec i s = .next t →
    t.wires.lutHit = s.wires.lutHit ∧ t.wires.unitId = s.wires.unitId ∧ t.wires.scale = s.wires.scale

/-- R151: under an admitted table a lookup hits exactly the slots below a mode's length; a miss of a frame
of good length and parity is UNKNOWN_MODE_OR_UNIT and no measurement. -/
def Obligations.LookupHitsExactlyDefinedSlots : Prop :=
  (∀ (p : Params) (c : Nibble) (u : UnitIndex), p.admitted = true →
    (lutPresent (lutRead (loadTable p.lutInit) (lutAddress c u)) = true ↔
      ∃ (m : Mode) (l : Nat), p.modeCode m = c ∧ p.rowHasLength c l = true ∧ u.toNat < l)) ∧
  ∀ (s : State) (f : Frame), parAll f = true →
    lutPresent (frameWord s.params (maskFrame f) s.table) = false →
    ∃ t, exec (.decode 14 f) s = .next t ∧ t.res.status = .unknownModeOrUnit ∧
      t.res.meas = Measurement.zero ∧ t.res.diag.lutHit = false

/-- R149, R80, R266: a block is built exactly with parameters that meet R80 and every condition (a) to (g), and
is refused otherwise. That codes failing R80 are refused too, and that the block built is `State.resetWith`, which holds its
parameters, is log entry 5 (its idle pins are log entry 4, its own fields log entry 13). -/
def Obligations.BootRefusesTablesThatFailTheConditions : Prop :=
  ∀ p : Params,
    (p.MeetsConditions → boot p = .next (State.resetWith p) ∧ (State.resetWith p).params = p ∧
      tableIsLutInit (State.resetWith p)) ∧
    (¬ p.MeetsConditions → boot p = .refused .lutInitNotAdmitted)

/-- R32, R55: after the reset load each of the 128 words reads as `LUT_INIT` has it. (That the build's parameters
give the reset state is log entry 5.) -/
def Obligations.LoadedTableReadsAsLutInit : Prop :=
  ∀ (p : Params) (a : Fin 128),
    lutRead (State.resetWith p).table (BitVec.ofNat 7 a.val) = p.lutInit[a]

/-- R149(f), (g), R80: with an admitted build and the table `LUT_INIT`, VOLTAGE 4 has the scale 100, CAPACITANCE 0 the scale 1000,
and the code 0xA has no slot. -/
def Obligations.FixedTableEntries : Prop :=
  ∀ s : State, builtAdmitted s → tableIsLutInit s →
    (∃ t, exec (.modeselVoltage 4) s = .next t ∧ t.wires.lutHit = true ∧ t.wires.scale = 100) ∧
    (∃ t, exec (.modeselCapacitance 0) s = .next t ∧ t.wires.lutHit = true ∧ t.wires.scale = 1000) ∧
    ∀ u : UnitIndex, ∃ t, exec (.modeselInvalidA u) s = .next t ∧ t.wires.lutHit = false

/-! ### The fixed-point scalar -/

/-- R170, R171, R172: on OK the magnitude is the weighted sum of the five digit nibbles by their binary
values, and at most 166665, so 18 bits hold it. -/
def Obligations.MagnitudeIsTheWeightedDigitSum : Prop :=
  ∀ (s : State) (f : Frame), parAll f = true →
    lutPresent (frameWord s.params (maskFrame f) s.table) = true →
    ∃ t, exec (.decode 14 f) s = .next t ∧
      t.res.meas.magnitude.toNat =
        f[1].toNat % 16 * 10000 + f[2].toNat % 16 * 1000 + f[3].toNat % 16 * 100 + f[4].toNat % 16 * 10 +
          f[5].toNat % 16 ∧
      t.res.meas.magnitude.toNat ≤ 166665

/-- R174, R173: with an admitted build and the table `LUT_INIT` the divisor of an OK decode is at least 1, and the exact value
times the divisor is the signed magnitude. -/
def Obligations.ExactValueTimesScaleIsSignedMagnitude : Prop :=
  ∀ (s : State) (f : Frame), builtAdmitted s → tableIsLutInit s → parAll f = true →
    lutPresent (frameWord s.params (maskFrame f) s.table) = true →
    ∃ t, exec (.decode 14 f) s = .next t ∧ 1 ≤ t.res.meas.scale.toNat ∧
      exactValue t.res.meas.negative t.res.meas.magnitude t.res.meas.scale * (t.res.meas.scale.toNat : ℚ) =
        if f[7].getLsbD 2 then -(t.res.meas.magnitude.toNat : ℚ) else (t.res.meas.magnitude.toNat : ℚ)

/-- R175: divide, then negate if the sign bit is set, in any format. -/
def Obligations.FpValueDividesThenNegates : Prop :=
  ∀ (F : FpFormat) (m : Measurement),
    (m.negative = true → fpValue F m = F.neg (F.div (F.ofNat m.magnitude.toNat) (F.ofNat m.scale.toNat))) ∧
    (m.negative = false → fpValue F m = F.div (F.ofNat m.magnitude.toNat) (F.ofNat m.scale.toNat))

/-- R175 (corner case): integers below 2^53 convert to binary64 exactly (binary64 is log entry 10). -/
def Obligations.IntegersConvertExactlyToBinary64 : Prop :=
  ∀ n : Nat, n < 2 ^ 53 →
    binary64Sign (binary64OfNat n) = false ∧ binary64IsNan (binary64OfNat n) = false ∧
      binary64IsInf (binary64OfNat n) = false ∧ binary64Units (binary64OfNat n) = n * 2 ^ 1074

/-- R176: a negative sign with magnitude 0 gives -0.0 in binary64 (log entry 10), not +0.0. -/
def Obligations.NegativeZeroKeepsItsSign : Prop :=
  ∀ m : Measurement, m.magnitude = 0 → 1 ≤ m.scale.toNat →
    (m.negative = true → fpValue binary64 m = (0x8000000000000000 : BitVec 64)) ∧
    (m.negative = false → fpValue binary64 m = (0 : BitVec 64))

/-! ### The result multiplexer -/

/-- R233: one status, length before parity before lookup; a parity error with an unknown mode still shows
`d_lut_hit = 0`. -/
def Obligations.StatusPriority : Prop :=
  ∀ (s : State) (len : Len) (f : Frame), ∃ t, exec (.decode len f) s = .next t ∧
    t.res.status =
      (if len.toNat ≠ 14 then .invalidLength
      else if ∃ i : Fin 14, parOk f[i] = false then .parityMismatch
      else if lutPresent (frameWord s.params (maskFrame f) s.table) = false then .unknownModeOrUnit
      else .ok) ∧
    (len.toNat = 14 → t.res.diag.lutHit = lutPresent (frameWord s.params (maskFrame f) s.table))

/-- R192, R193: the two gates, for every status. -/
def Obligations.GatesFollowTheStatus : Prop :=
  ∀ (s : State) (len : Len) (f : Frame), ∃ t, exec (.decode len f) s = .next t ∧
    (t.res.status = .ok → t.res.meas = measurementOf s.params f s.table) ∧
    (t.res.status ≠ .ok → t.res.meas = Measurement.zero) ∧
    (t.res.status ≠ .invalidLength → t.res.diag = diagnosticOf s.params f s.table) ∧
    (t.res.status = .invalidLength → t.res.diag = Diagnostic.zero)

/-- R194, R141, R150: what a decode of good length and parity that hits reports: status OK, the resolved
mode, the slot's unit and scale, and the seven predicates, each from its bit of the captured frame. With
both override flags the mode is FREQUENCY and both predicates are 1. -/
def Obligations.MeasurementOfAGoodFrame : Prop :=
  ∀ (s : State) (f : Frame), parAll f = true →
    lutPresent (frameWord s.params (maskFrame f) s.table) = true →
    ∃ t, exec (.decode 14 f) s = .next t ∧ t.res.status = .ok ∧ t.res.meas.mode = t.res.diag.modeRes ∧
      t.res.meas.unitId.toNat =
        (Memory.read s.table (t.res.meas.mode.toNat * 8 + f[0].toNat % 8)).toNat / 2 ^ 16 % 16 ∧
      t.res.meas.scale.toNat =
        (Memory.read s.table (t.res.meas.mode.toNat * 8 + f[0].toNat % 8)).toNat % 2 ^ 16 ∧
      t.res.meas.negative = f[7].getLsbD 2 ∧ t.res.meas.overload = f[7].getLsbD 0 ∧
      t.res.meas.underload = f[9].getLsbD 3 ∧ t.res.meas.freq = f[10].getLsbD 0 ∧
      t.res.meas.duty = f[7].getLsbD 3 ∧ t.res.meas.dc = f[10].getLsbD 3 ∧
      t.res.meas.ac = f[10].getLsbD 2 ∧
      (f[10].getLsbD 0 = true → t.res.meas.mode = s.params.modeCode .frequency)

/-- R195: overload, underload, low battery and AUTO do not change the status or the magnitude. -/
def Obligations.RangeFlagsAreNoErrors : Prop :=
  ∀ (s : State) (f g : Frame), parAll f = true → parAll g = true →
    (∀ i : Fin 14, i.val ≠ 7 → i.val ≠ 9 → i.val ≠ 10 → f[i] = g[i]) →
    f[7].toNat % 128 / 4 = g[7].toNat % 128 / 4 → f[10].getLsbD 0 = g[10].getLsbD 0 →
    ∃ t u, exec (.decode 14 f) s = .next t ∧ exec (.decode 14 g) s = .next u ∧
      t.res.status = u.res.status ∧ t.res.meas.magnitude = u.res.meas.magnitude

/-- R196: with an admitted build and the table `LUT_INIT`, an OK decode has one of the ten codes, a unit index below that mode's
length, and a scale of at least 1. -/
def Obligations.OkDecodeIsWithinItsTable : Prop :=
  ∀ (s t : State) (len : Len) (f : Frame), builtAdmitted s → tableIsLutInit s → exec (.decode len f) s = .next t →
    t.res.status = .ok →
    (∃ (m : Mode) (l : Nat), t.res.meas.mode = s.params.modeCode m ∧
      s.params.rowHasLength t.res.meas.mode l = true ∧ t.res.diag.unitIndex.toNat < l) ∧
    1 ≤ t.res.meas.scale.toNat

/-- R197: with an admitted build and the table `LUT_INIT`, the unit of an OK decode is the empty string exactly at
`EMPTY_UNIT_SLOT`. -/
def Obligations.UnitIsEmptyOnlyAtItsSlot : Prop :=
  ∀ (s t : State) (len : Len) (f : Frame), builtAdmitted s → tableIsLutInit s → exec (.decode len f) s = .next t →
    t.res.status = .ok →
    (s.params.unitString t.res.meas.unitId = "" ↔
      lutAddress t.res.meas.mode t.res.diag.unitIndex = s.params.emptyUnitSlot)

/-- The frame of DECODE: it writes RES, `busy` and `valid`, and nothing else (R56, R58, R263). That it sets
`busy` to 0 and `valid` to 1 from every state, also where no DECODE is in flight, is log entry 9; `stage`,
`wires` and `countdown` are the model's own (log entries 1 and 3), and `params` is what the block was built
with (log entry 5); that no step moves the pins is log entry 4. -/
def Obligations.DecodeWritesOnlyTheResult : Prop :=
  ∀ (s t : State) (len : Len) (f : Frame), exec (.decode len f) s = .next t →
    t.busy = false ∧ t.valid = true ∧ t.params = s.params ∧ t.ready = s.ready ∧ t.capLen = s.capLen ∧
      t.capByte = s.capByte ∧ t.port = s.port ∧ t.stage = s.stage ∧ t.wires = s.wires ∧ t.countdown = s.countdown ∧
      ∀ a : Nat, Memory.read t.table a = Memory.read s.table a

/-- R28: the packed words, field by field, with every bit not listed 0. R230 (and R27): the four status codes,
the code a DECODE gets by its cause, and what is recorded beside each. -/
def Obligations.PackedWordsHoldTheFields : Prop :=
  (∀ s : State, (statusWord s).getLsbD 0 = s.valid ∧ (statusWord s).extractLsb' 1 2 = statusCode s.res.status ∧
    (statusWord s).getLsbD 3 = s.ready ∧ (statusWord s).getLsbD 4 = s.busy ∧
    (statusWord s).extractLsb' 5 3 = 0) ∧
  (statusCode .ok = 0 ∧ statusCode .invalidLength = 1 ∧ statusCode .parityMismatch = 2 ∧
    statusCode .unknownModeOrUnit = 3) ∧
  (∀ (s : State) (len : Len) (f : Frame), ∃ t, exec (.decode len f) s = .next t ∧
    let code := (statusWord t).extractLsb' 1 2
    code = (if len.toNat ≠ 14 then 1
      else if ∃ i : Fin 14, parOk f[i] = false then 2
      else if lutPresent (frameWord s.params (maskFrame f) s.table) = false then 3
      else 0) ∧
    (code = 0 → t.res.meas = measurementOf s.params f s.table ∧ t.res.diag = diagnosticOf s.params f s.table) ∧
    (code = 1 → t.res.meas = Measurement.zero ∧ t.res.diag = Diagnostic.zero) ∧
    (code = 2 → t.res.meas = Measurement.zero ∧ t.res.diag = diagnosticOf s.params f s.table) ∧
    (code = 3 → t.res.meas = Measurement.zero ∧ t.res.diag = diagnosticOf s.params f s.table ∧
      t.res.diag.lutHit = false)) ∧
  (∀ m : Measurement, (measWord m).extractLsb' 0 4 = m.mode ∧ (measWord m).extractLsb' 4 4 = m.unitId ∧
    (measWord m).extractLsb' 8 16 = m.scale ∧ (measWord m).extractLsb' 24 18 = m.magnitude ∧
    (measWord m).getLsbD 42 = m.negative ∧ (measWord m).getLsbD 43 = m.overload ∧
    (measWord m).getLsbD 44 = m.underload ∧ (measWord m).getLsbD 45 = m.freq ∧
    (measWord m).getLsbD 46 = m.duty ∧ (measWord m).getLsbD 47 = m.dc ∧ (measWord m).getLsbD 48 = m.ac ∧
    (measWord m).extractLsb' 49 15 = 0) ∧
  (∀ d : Diagnostic, (diagWord d).extractLsb' 0 3 = d.unitIndex ∧ (diagWord d).extractLsb' 3 4 = d.modeBase ∧
    (diagWord d).extractLsb' 7 4 = d.typ ∧ (diagWord d).extractLsb' 11 4 = d.info ∧
    (diagWord d).getLsbD 15 = d.underload ∧
    (∀ k : Fin 5, (diagWord d).extractLsb' (16 + 4 * k.val) 4 = d.digit[k]) ∧
    (diagWord d).extractLsb' 36 4 = d.modeRes ∧ (diagWord d).getLsbD 40 = d.dutyCond ∧
    (diagWord d).getLsbD 41 = d.lutHit ∧ (diagWord d).extractLsb' 42 14 = d.parOk ∧
    (diagWord d).extractLsb' 56 8 = 0) ∧
  ∀ (d : Diagnostic) (i : Fin 14),
    (rawWord d i).extractLsb' 0 7 = d.raw[i] ∧ (rawWord d i).getLsbD 7 = false

/-! ### Reset, the handshake, and whole-machine rules -/

/-- R260, R261, R37: a step with the reset signal up leaves every element at its reset value, whether or
not a DECODE was in flight. (That `LUT_INIT` and the rest of the build stand in the state, and stay, is log
entry 5.) -/
def Obligations.ResetStepGivesResetValues : Prop :=
  ∀ s : State, s.port.rst = true → ∃ t, step s = .next t ∧
    t.params = s.params ∧ (∀ a : Fin 128, lutRead t.table (BitVec.ofNat 7 a.val) = s.params.lutInit[a]) ∧
    t.ready = true ∧ t.busy = false ∧ t.valid = false ∧ t.capLen = 0 ∧ (∀ i : Fin 14, t.capByte[i] = 0) ∧
    t.res.status = .ok ∧ t.res.meas = Measurement.zero ∧ t.res.diag = Diagnostic.zero

/-- R262: ACCEPT when it is enabled; a step that is not enabled changes nothing; a request while busy is
not taken: the capture stays as it was. (That no step moves the pins is log entry 4.) -/
def Obligations.AcceptCapturesOnlyWhenEnabled : Prop :=
  (∀ s : State, s.port.rst = false → s.ready = true → s.busy = false → s.port.req = true →
    ∃ t, step s = .next t ∧ t.capLen = s.port.inLen ∧ t.capByte = s.port.inByte ∧ t.busy = true ∧
      t.valid = false ∧ t.res = s.res ∧ t.table = s.table ∧ t.ready = s.ready ∧ t.port = s.port) ∧
  (∀ s : State, s.port.rst = false → s.busy = false → s.ready = false ∨ s.port.req = false →
    step s = .next s) ∧
  ∀ s : State, s.port.rst = false → s.busy = true →
    ∃ t, step s = .next t ∧ t.capLen = s.capLen ∧ t.capByte = s.capByte

/-- R263: COMPLETE writes `decode(cap_len, cap_byte, T)` at once, and `busy` and `valid`, as soon as no step of
LATENCY is left, wherever the selectors stand (the count of LATENCY is log entry 3; the build and the pins stand
in the state by log entries 5 and 4). -/
def Obligations.CompleteWritesDecodeOfTheCapture : Prop :=
  ∀ s : State, s.port.rst = false → s.busy = true → s.countdown = 0 →
    ∃ t, step s = .next t ∧ t.res = decodeFrame s.params s.capLen s.capByte s.table ∧
      t.busy = false ∧ t.valid = true ∧ t.params = s.params ∧ t.table = s.table ∧ t.ready = s.ready ∧
      t.capLen = s.capLen ∧ t.capByte = s.capByte ∧ t.port = s.port

/-- A step of a busy block is `exec` of the instruction the bytes in flight decode to, at the state with one
step of LATENCY less (with the same state where none is left); where nothing is fetched only that count
changes (log entries 1 and 3). -/
def Obligations.StepRunsTheFetchedInstruction : Prop :=
  (∀ (s : State) (i : Instr), s.port.rst = false → s.busy = true → fetched s = some (.instr i) →
    step s = exec i { s with countdown := s.countdown - 1 }) ∧
  ∀ s : State, s.port.rst = false → s.busy = true → fetched s = none →
    step s = .next { s with countdown := s.countdown - 1 }

/-- What a DECODE in flight fetches: itself as soon as no step of LATENCY is left; until then, at each point of
the pipeline, the next selector its frame fires, else its table row, and nothing once all have run (R2, R140,
R150, R263; log entries 1 and 3). -/
def Obligations.PipelineFetchesTheFramesOwnOperations : Prop :=
  ∀ s : State,
    (s.countdown = 0 → fetched s = some (.instr (.decode s.capLen s.capByte))) ∧
    (s.countdown ≠ 0 →
      let lookup := modeselOf s.wires.modeRes (s.capByte[0].extractLsb' 0 3)
      let freq := if s.capByte[10].getLsbD 0 then .ovrFreq (s.capByte[10].extractLsb' 0 7) else lookup
      let dutyEq := if s.capByte[7].toNat % 16 = 8 then .ovrDutyEq (s.capByte[7].extractLsb' 0 7) else freq
      let dutyBit := if s.capByte[7].getLsbD 3 then .ovrDutyBit (s.capByte[7].extractLsb' 0 7) else dutyEq
      (s.stage = .ovrDutyBit → fetched s = some (.instr dutyBit)) ∧
      (s.stage = .ovrDutyEq → fetched s = some (.instr dutyEq)) ∧
      (s.stage = .ovrFreq → fetched s = some (.instr freq)) ∧
      (s.stage = .lookup → fetched s = some (.instr lookup)) ∧
      (s.stage = .complete → fetched s = none))

/-- An instruction word put into a state is what the next step runs, at the state with the step of LATENCY
passed that a selector is placed with (log entries 3 and 8). -/
def Obligations.PlacedWordIsRunByTheNextStep : Prop :=
  ∀ (s : State) (nbits w : Nat) (i : Instr), decodeTableWord nbits w = some i →
    step (s.withFetchWord nbits w) =
      exec i { s.withFetchWord nbits w with countdown := (s.withFetchWord nbits w).countdown - 1 }

/-- R199, R231: the block never faults and never refuses: every instruction and every step answer a next
state. (The type `Fault` has no constructor, log entry 15.) -/
def Obligations.BlockNeverFaultsOrRefuses : Prop :=
  (∀ (i : Instr) (s : State), ∃ t, exec i s = .next t) ∧ ∀ s : State, ∃ t, step s = .next t

/-- R24: only the completion of a DECODE and reset write RES. -/
def Obligations.ResultIsWrittenOnlyByCompletionOrReset : Prop :=
  ∀ s t : State, step s = .next t → t.res ≠ s.res →
    (s.port.rst = true ∧ t.res = Result.zero) ∨
    (s.port.rst = false ∧ s.busy = true ∧ t.busy = false ∧ t.valid = true ∧
      t.res = decodeFrame s.params s.capLen s.capByte s.table)

/-- R32, R56: nothing writes the table but reset, and reset loads `LUT_INIT`; no step moves the pins of the
port (R21; log entry 4) or what the block is built with (R8, R29; log entry 5). -/
def Obligations.TableIsWrittenOnlyByReset : Prop :=
  ∀ s t : State, step s = .next t →
    t.port = s.port ∧ t.params = s.params ∧ (s.port.rst = false → t.table = s.table) ∧
      (s.port.rst = true → t.table = loadTable s.params.lutInit) ∧
      (tableIsLutInit s → tableIsLutInit t) ∧ (builtAdmitted s → builtAdmitted t)

/-- At reset the table holds `LUT_INIT` (R37), and the block is built with admitted parameters (R266; log
entry 5). -/
def Obligations.TableIsLutInitAtReset : Prop := tableIsLutInit State.reset ∧ builtAdmitted State.reset

/-- R34, R35, R140, R150: every step keeps the invariant: a canonical table, never busy and valid together,
a valid RES that is the decode of the DECODE accepted last, and wires that agree with the captured frame
as far as the pipeline has come (the wires are log entry 1). -/
def Obligations.EveryStepKeepsTheInvariant : Prop :=
  ∀ s t : State, Inv s → step s = .next t → Inv t

/-- The invariant holds at reset (R37; the model's own fields by log entry 13). -/
def Obligations.InvariantHoldsAtReset : Prop := Inv State.reset

/-- Where all selectors have run before COMPLETE, what they put on the wires is what it reports (R141, R150,
R152; log entry 1). -/
def Obligations.PipelineWiresAgreeWithTheResult : Prop :=
  ∀ s : State, Inv s → s.port.rst = false → s.busy = true → s.countdown = 0 → s.stage = .complete →
    s.capLen = 14 →
    ∃ t, step s = .next t ∧ t.res.diag.modeRes = s.wires.modeRes ∧ t.res.diag.dutyCond = s.wires.dutyCond ∧
      t.res.diag.lutHit = s.wires.lutHit ∧
      (t.res.status = .ok → t.res.meas.mode = s.wires.modeRes ∧ t.res.meas.unitId = s.wires.unitId ∧
        t.res.meas.scale = s.wires.scale ∧ t.res.meas.duty = s.wires.dutyCond)

/-- R263, R264: a DECODE in flight completes exactly once, whatever LATENCY is: ACCEPT leaves LATENCY steps to
pass, the block is busy with the old RES until they have, and the step after them writes the decode of the
capture (how steps are counted is log entry 3; the build and the pins stand in the state by log entries 5 and
4). -/
def Obligations.DecodeInFlightCompletes : Prop :=
  (∀ s : State, s.port.rst = false → s.ready = true → s.busy = false → s.port.req = true →
    ∃ t, step s = .next t ∧ t.countdown = s.params.latency) ∧
  ∀ s : State, s.port.rst = false → s.busy = true →
    (∀ n : Nat, n ≤ s.countdown → ∃ t, runBusy n s = .next t ∧ t.busy = true ∧ t.res = s.res) ∧
    ∃ t, runBusy (s.countdown + 1) s = .next t ∧ t.busy = false ∧ t.valid = true ∧
      t.res = decodeFrame s.params s.capLen s.capByte s.table ∧ t.params = s.params ∧ t.table = s.table ∧
      t.ready = s.ready ∧ t.port = s.port

/-- R61, R264, R265: what a host observes of a script of DECODEs and RESETs is, in order, the decode of each
request under the table as it stands, a RESET loading `LUT_INIT`: from a ready idle state, and from any state
for a script that starts with a RESET. Where the table is `LUT_INIT` already, a RESET makes no difference to the
observations. (The build stands in the state, log entry 5; the script runner drives the pins itself, log entry 4;
a request that waits for ever is refused, log entry 17; what a script observes that ends in a RESET or has no DECODE is log entry 19.) -/
def Obligations.ScriptResultsAreDecodesInOrder : Prop :=
  (∀ (s : State) (ts : List Transaction), s.ready = true → s.busy = false →
    ∃ t, runScript ts s = .next (t, scriptResults s.params s.table ts) ∧ t.ready = true ∧ t.busy = false ∧
      t.params = s.params ∧
      t.table = if Transaction.reset ∈ ts then loadTable s.params.lutInit else s.table) ∧
  (∀ (s : State) (ts : List Transaction),
    ∃ t, runScript (.reset :: ts) s = .next (t, scriptResults s.params (loadTable s.params.lutInit) ts) ∧
      t.ready = true ∧ t.busy = false ∧ t.params = s.params ∧ tableIsLutInit t) ∧
  ∀ (s : State) (ts : List Transaction), tableIsLutInit s →
    scriptResults s.params s.table ts = ts.filterMap fun x =>
      match x with
      | .reset => none
      | .decode len f => some (decodeFrame s.params len f s.table)

/-- R35: two decodes of the same inputs under the same table, by blocks of the same build, write the same RES,
whatever the two blocks held before. (The build stands in the state, log entry 5; the transaction drives the pins,
log entry 4.) -/
def Obligations.NoStateLeaksBetweenDecodes : Prop :=
  ∀ (s s' : State) (len : Len) (f : Frame), s.params = s'.params → s.table = s'.table →
    s.ready = true → s'.ready = true →
    ∃ t t' r, transact (.decode len f) s = .next (t, [r]) ∧ transact (.decode len f) s' = .next (t', [r])

/-- R260, R261, R86: the transaction RESET, from any state, leaves the reset state of the block's own build
(its idle pins are log entry 4, its kept parameters log entry 5, the values of the model's own fields log entry
13). -/
def Obligations.ResetTransactionGivesReset : Prop :=
  ∀ s : State, transact .reset s = .next (State.resetWith s.params, [])

/-- R63, R240: while the common reset signal is down, instance k moves as if it were alone, the others stand
still, and the shared table stays shared (that the caller says who moves is log entry 12). -/
def Obligations.InstancesDoNotInterfere : Prop :=
  ∀ (insts : Cluster) (k : Nat) (s : State), (∀ x ∈ insts, x.port.rst = false) → insts[k]? = some s →
    ∃ t, step s = .next t ∧ clusterStep k insts = .next (insts.set k t) ∧
      (insts.set k t)[k]? = some t ∧ (∀ j, j ≠ k → (insts.set k t)[j]? = insts[j]?) ∧
      ∀ (p : Params) (tbl : Memory), clusterShares p tbl insts → clusterShares p tbl (insts.set k t)

/-- R240, R260, R37: the instances start together at reset: while the reset signal is up at any of them, a step
gives every one its reset values, each keeping its pins and its build (log entries 4 and 5), and they share the
`LUT_INIT` of their build afterwards (that the signal is common is log entry 12). R149, R8: at the start there
are `N_INST` of them, at least one, each the block `boot` builds, and parameters that fail are refused. -/
def Obligations.InstancesResetTogether : Prop :=
  (∀ (insts : Cluster) (k : Nat) (x : State), x ∈ insts → x.port.rst = true →
    ∃ cs : Cluster, clusterStep k insts = .next cs ∧ cs.length = insts.length ∧
      (∀ (j : Nat) (s : State), insts[j]? = some s → ∃ t, cs[j]? = some t ∧ t.params = s.params ∧
        tableIsLutInit t ∧ t.ready = true ∧ t.busy = false ∧ t.valid = false ∧ t.capLen = 0 ∧
        (∀ i : Fin 14, t.capByte[i] = 0) ∧ t.res = Result.zero ∧ t.port = s.port) ∧
      ∀ (p : Params) (tbl : Memory), clusterShares p tbl insts → clusterShares p (loadTable p.lutInit) cs) ∧
  ∀ (p : Params) (n : ℕ+),
    (p.MeetsConditions → ∃ cs : Cluster, clusterReset p n = .next cs ∧ cs.length = n ∧ 1 ≤ cs.length ∧
      (∀ s ∈ cs, boot p = .next s) ∧ clusterShares p (loadTable p.lutInit) cs) ∧
    (¬ p.MeetsConditions → clusterReset p n = .refused .lutInitNotAdmitted)

/-! ### The host's side -/

/-- R212: more than 65535 bytes are presented as 0xFFFF, and the decode is INVALID_LENGTH. -/
def Obligations.OverlongInputIsInvalidLength : Prop :=
  ∀ (s : State) (received : List Byte) (f : Frame), 65535 < received.length →
    satLen received.length = 0xFFFF ∧
    ∃ t, exec (.decode (satLen received.length) f) s = .next t ∧ t.res.status = .invalidLength

/-- R21, R86, R212: where no request waits, the host's request is presented with its saturated length and its
bytes, those past the received ones 0, and it waits from then on; one with another length is refused (log entry
17). -/
def Obligations.HostPresentsSaturatedHeldRequests : Prop :=
  (∀ (b : Bench) (received : List Byte), b.waiting = false →
    ∃ c, hostRequest received (satLen received.length) b = .next c ∧ c.waiting = true ∧
      c.block.port.req = true ∧ c.block.port.inLen.toNat = min received.length 65535 ∧
      (∀ i : Fin 14, c.block.port.inByte[i] = (received[i.val]?).getD 0) ∧
      c.block.port.rst = b.block.port.rst ∧ { c.block with port := b.block.port } = b.block) ∧
  ∀ (b : Bench) (received : List Byte) (len : Len), len ≠ satLen received.length →
    hostRequest received len b = .refused .lengthNotSaturated

/-- R210, R271, D17: a host that has raised a request must hold `req`, `in_len` and `in_byte` until the block
accepts it, and is refused if it changes one of them; the reset signal it may move at any time; a host with no
request waiting may move every pin, and a request waits from the moment it is raised. The block's ACCEPT ends
the duty, and no other step does (a `req` left at 1 is not raised anew, log entry 17). -/
def Obligations.RequestsAreHeldUntilAccepted : Prop :=
  (∀ (b : Bench) (p : Port), b.waiting = true →
    if p.req = b.block.port.req ∧ p.inLen = b.block.port.inLen ∧ p.inByte = b.block.port.inByte then
      hostDrive p b = .next { block := { b.block with port := p }, waiting := true }
    else hostDrive p b = .refused .inputsNotHeld) ∧
  (∀ (b : Bench) (p : Port), b.waiting = false →
    hostDrive p b = .next { block := { b.block with port := p }, waiting := p.req && !b.block.port.req }) ∧
  ∀ b : Bench, ∃ c, benchStep b = .next c ∧ step b.block = .next c.block ∧
    (c.waiting = true ↔ b.waiting = true ∧
      ¬(b.block.port.rst = false ∧ b.block.ready = true ∧ b.block.busy = false ∧ b.block.port.req = true))

/-- R87: the low 7 bits of the bytes of DECODE.F are the rule's v0 to v13, every byte has odd parity, and the
fields are read back; DECODE.F!k has even parity in byte k alone and the same low bits; and the two
scenarios' frames are what the rule says. -/
def Obligations.BuiltFramesHoldTheirFields : Prop :=
  (∀ (u : UnitIndex) (d : Vector Nibble 5) (m i t : Nibble) (ul : Bool),
    let f := frameOfFields u d m i ul t
    let r := maskFrame f
    r = #v[0x30 ||| u.setWidth 7, 0x30 ||| d[0].setWidth 7, 0x30 ||| d[1].setWidth 7,
        0x30 ||| d[2].setWidth 7, 0x30 ||| d[3].setWidth 7, 0x30 ||| d[4].setWidth 7,
        0x30 ||| m.setWidth 7, 0x30 ||| i.setWidth 7, 0x30,
        0x30 ||| ((BitVec.ofBool ul).setWidth 7 <<< 3), 0x30 ||| t.setWidth 7, 0x30, 0x0D, 0x0A] ∧
      (∀ k : Fin 14, parOk f[k] = true) ∧
      (∀ k j : Fin 14, parOk (flipParity f k)[j] = !decide (j = k)) ∧
      (∀ k : Fin 14, maskFrame (flipParity f k) = r) ∧
      extUnitIndex r = u ∧ extDigits r = d ∧ extMode r = m ∧ extInfo r = i ∧ extUnderload r = ul ∧
      extType r = t) ∧
  frameOfFields 4 #v[2, 2, 5, 8, 0] 0xB 1 false 8 =
    #v[0x34, 0x32, 0x32, 0xB5, 0x38, 0xB0, 0x3B, 0x31, 0xB0, 0xB0, 0x38, 0xB0, 0x0D, 0x8A] ∧
  frameOfFields 0 #v[0, 0, 3, 2, 0] 0x6 0 false 2 =
    #v[0xB0, 0xB0, 0xB0, 0xB3, 0x32, 0xB0, 0xB6, 0xB0, 0xB0, 0xB0, 0x32, 0xB0, 0x0D, 0x8A]

/-- R270, R272: after ACCEPT no result is current, and a measurement is trusted exactly when RES is current
and its status is OK. -/
def Obligations.OnlyCurrentOkResultsAreTrusted : Prop :=
  (∀ s : State, s.port.rst = false → s.ready = true → s.busy = false → s.port.req = true →
    ∃ t, step s = .next t ∧ currentResult t = none ∧ trustedMeasurement t = none) ∧
  ∀ (s : State) (m : Measurement),
    trustedMeasurement s = some m ↔ s.valid = true ∧ s.res.status = .ok ∧ s.res.meas = m
end

