-- ==== Sys2Proof/Laws/State.lean ====
section
/-! SUPPORT. One lemma per field per operation on the state, and the values of a reset. -/

namespace Sys2Proof.Machine

@[simp] theorem resetOp_params (s : State) : (resetOp s).params = s.params := rfl

@[simp] theorem resetOp_table (s : State) :
    (resetOp s).table = loadTable s.params.lutInit := rfl

@[simp] theorem resetOp_ready (s : State) : (resetOp s).ready = true := rfl

@[simp] theorem resetOp_busy (s : State) : (resetOp s).busy = false := rfl

@[simp] theorem resetOp_capLen (s : State) : (resetOp s).capLen = 0 := rfl

@[simp] theorem resetOp_capByte (s : State) : (resetOp s).capByte = Vector.replicate 14 0 := rfl

@[simp] theorem resetOp_valid (s : State) : (resetOp s).valid = false := rfl

@[simp] theorem resetOp_res (s : State) : (resetOp s).res = Result.zero := rfl

@[simp] theorem resetOp_port (s : State) : (resetOp s).port = s.port := rfl

@[simp] theorem resetOp_stage (s : State) : (resetOp s).stage = .ovrDutyBit := rfl

@[simp] theorem resetOp_wires (s : State) : (resetOp s).wires = Wires.zero := rfl

@[simp] theorem resetOp_countdown (s : State) : (resetOp s).countdown = 0 := rfl

@[simp] theorem acceptOp_params (len : Len) (f : Frame) (s : State) : (acceptOp len f s).params = s.params := rfl

@[simp] theorem acceptOp_table (len : Len) (f : Frame) (s : State) : (acceptOp len f s).table = s.table := rfl

@[simp] theorem acceptOp_ready (len : Len) (f : Frame) (s : State) : (acceptOp len f s).ready = s.ready := rfl

@[simp] theorem acceptOp_busy (len : Len) (f : Frame) (s : State) : (acceptOp len f s).busy = true := rfl

@[simp] theorem acceptOp_capLen (len : Len) (f : Frame) (s : State) : (acceptOp len f s).capLen = len := rfl

@[simp] theorem acceptOp_capByte (len : Len) (f : Frame) (s : State) : (acceptOp len f s).capByte = f := rfl

@[simp] theorem acceptOp_valid (len : Len) (f : Frame) (s : State) : (acceptOp len f s).valid = false := rfl

@[simp] theorem acceptOp_res (len : Len) (f : Frame) (s : State) : (acceptOp len f s).res = s.res := rfl

@[simp] theorem acceptOp_port (len : Len) (f : Frame) (s : State) : (acceptOp len f s).port = s.port := rfl

@[simp] theorem acceptOp_stage (len : Len) (f : Frame) (s : State) :
    (acceptOp len f s).stage = if lenOk len then .ovrDutyBit else .complete := rfl

@[simp] theorem acceptOp_wires (len : Len) (f : Frame) (s : State) :
    (acceptOp len f s).wires = if lenOk len then { Wires.zero with modeRes := extMode (maskFrame f) } else Wires.zero := rfl

@[simp] theorem acceptOp_countdown (len : Len) (f : Frame) (s : State) : (acceptOp len f s).countdown = s.params.latency := rfl

@[simp] theorem completeOp_params (len : Len) (f : Frame) (s : State) : (completeOp len f s).params = s.params := rfl

@[simp] theorem completeOp_table (len : Len) (f : Frame) (s : State) : (completeOp len f s).table = s.table := rfl

@[simp] theorem completeOp_ready (len : Len) (f : Frame) (s : State) : (completeOp len f s).ready = s.ready := rfl

@[simp] theorem completeOp_busy (len : Len) (f : Frame) (s : State) : (completeOp len f s).busy = false := rfl

@[simp] theorem completeOp_capLen (len : Len) (f : Frame) (s : State) : (completeOp len f s).capLen = s.capLen := rfl

@[simp] theorem completeOp_capByte (len : Len) (f : Frame) (s : State) : (completeOp len f s).capByte = s.capByte := rfl

@[simp] theorem completeOp_valid (len : Len) (f : Frame) (s : State) : (completeOp len f s).valid = true := rfl

@[simp] theorem completeOp_res (len : Len) (f : Frame) (s : State) :
    (completeOp len f s).res = decodeFrame s.params len f s.table := rfl

@[simp] theorem completeOp_port (len : Len) (f : Frame) (s : State) : (completeOp len f s).port = s.port := rfl

@[simp] theorem completeOp_stage (len : Len) (f : Frame) (s : State) : (completeOp len f s).stage = s.stage := rfl

@[simp] theorem completeOp_wires (len : Len) (f : Frame) (s : State) : (completeOp len f s).wires = s.wires := rfl

@[simp] theorem completeOp_countdown (len : Len) (f : Frame) (s : State) : (completeOp len f s).countdown = s.countdown := rfl

@[simp] theorem lookupOp_params (code : Nibble) (u : UnitIndex) (s : State) : (lookupOp code u s).params = s.params := rfl

@[simp] theorem lookupOp_table (code : Nibble) (u : UnitIndex) (s : State) :
    (lookupOp code u s).table = s.table := rfl

@[simp] theorem lookupOp_ready (code : Nibble) (u : UnitIndex) (s : State) :
    (lookupOp code u s).ready = s.ready := rfl

@[simp] theorem lookupOp_busy (code : Nibble) (u : UnitIndex) (s : State) :
    (lookupOp code u s).busy = s.busy := rfl

@[simp] theorem lookupOp_capLen (code : Nibble) (u : UnitIndex) (s : State) :
    (lookupOp code u s).capLen = s.capLen := rfl

@[simp] theorem lookupOp_capByte (code : Nibble) (u : UnitIndex) (s : State) :
    (lookupOp code u s).capByte = s.capByte := rfl

@[simp] theorem lookupOp_valid (code : Nibble) (u : UnitIndex) (s : State) :
    (lookupOp code u s).valid = s.valid := rfl

@[simp] theorem lookupOp_res (code : Nibble) (u : UnitIndex) (s : State) :
    (lookupOp code u s).res = s.res := rfl

@[simp] theorem lookupOp_port (code : Nibble) (u : UnitIndex) (s : State) :
    (lookupOp code u s).port = s.port := rfl

@[simp] theorem lookupOp_stage (code : Nibble) (u : UnitIndex) (s : State) :
    (lookupOp code u s).stage = .complete := rfl

@[simp] theorem lookupOp_wires (code : Nibble) (u : UnitIndex) (s : State) :
    (lookupOp code u s).wires = { s.wires with
        lutHit := lutPresent (lutRead s.table (lutAddress code u))
        unitId := lutUnitId (lutRead s.table (lutAddress code u))
        scale := lutScale (lutRead s.table (lutAddress code u)) } := rfl

@[simp] theorem lookupOp_countdown (code : Nibble) (u : UnitIndex) (s : State) :
    (lookupOp code u s).countdown = s.countdown := rfl

@[simp] theorem freqOverrideOp_params (fires : Bool) (s : State) : (freqOverrideOp fires s).params = s.params := rfl

@[simp] theorem freqOverrideOp_table (fires : Bool) (s : State) : (freqOverrideOp fires s).table = s.table := rfl

@[simp] theorem freqOverrideOp_ready (fires : Bool) (s : State) : (freqOverrideOp fires s).ready = s.ready := rfl

@[simp] theorem freqOverrideOp_busy (fires : Bool) (s : State) : (freqOverrideOp fires s).busy = s.busy := rfl

@[simp] theorem freqOverrideOp_capLen (fires : Bool) (s : State) : (freqOverrideOp fires s).capLen = s.capLen := rfl

@[simp] theorem freqOverrideOp_capByte (fires : Bool) (s : State) : (freqOverrideOp fires s).capByte = s.capByte := rfl

@[simp] theorem freqOverrideOp_valid (fires : Bool) (s : State) : (freqOverrideOp fires s).valid = s.valid := rfl

@[simp] theorem freqOverrideOp_res (fires : Bool) (s : State) : (freqOverrideOp fires s).res = s.res := rfl

@[simp] theorem freqOverrideOp_port (fires : Bool) (s : State) : (freqOverrideOp fires s).port = s.port := rfl

@[simp] theorem freqOverrideOp_stage (fires : Bool) (s : State) : (freqOverrideOp fires s).stage = .lookup := rfl

@[simp] theorem freqOverrideOp_wires (fires : Bool) (s : State) :
    (freqOverrideOp fires s).wires = if fires then { s.wires with modeRes := s.params.modeCode .frequency } else s.wires := rfl

@[simp] theorem freqOverrideOp_countdown (fires : Bool) (s : State) : (freqOverrideOp fires s).countdown = s.countdown := rfl

@[simp] theorem dutyTermOp_params (fires : Bool) (next : Stage) (s : State) : (dutyTermOp fires next s).params = s.params := rfl

@[simp] theorem dutyTermOp_table (fires : Bool) (next : Stage) (s : State) :
    (dutyTermOp fires next s).table = s.table := rfl

@[simp] theorem dutyTermOp_ready (fires : Bool) (next : Stage) (s : State) :
    (dutyTermOp fires next s).ready = s.ready := rfl

@[simp] theorem dutyTermOp_busy (fires : Bool) (next : Stage) (s : State) :
    (dutyTermOp fires next s).busy = s.busy := rfl

@[simp] theorem dutyTermOp_capLen (fires : Bool) (next : Stage) (s : State) :
    (dutyTermOp fires next s).capLen = s.capLen := rfl

@[simp] theorem dutyTermOp_capByte (fires : Bool) (next : Stage) (s : State) :
    (dutyTermOp fires next s).capByte = s.capByte := rfl

@[simp] theorem dutyTermOp_valid (fires : Bool) (next : Stage) (s : State) :
    (dutyTermOp fires next s).valid = s.valid := rfl

@[simp] theorem dutyTermOp_res (fires : Bool) (next : Stage) (s : State) :
    (dutyTermOp fires next s).res = s.res := rfl

@[simp] theorem dutyTermOp_port (fires : Bool) (next : Stage) (s : State) :
    (dutyTermOp fires next s).port = s.port := rfl

@[simp] theorem dutyTermOp_stage (fires : Bool) (next : Stage) (s : State) :
    (dutyTermOp fires next s).stage = next := rfl

@[simp] theorem dutyTermOp_wires (fires : Bool) (next : Stage) (s : State) :
    (dutyTermOp fires next s).wires = if fires then
        { s.wires with
          dutyCond := true
          modeRes := if flagFreq (maskFrame s.capByte) then s.wires.modeRes
            else s.params.modeCode .duty }
      else s.wires := rfl

@[simp] theorem dutyTermOp_countdown (fires : Bool) (next : Stage) (s : State) :
    (dutyTermOp fires next s).countdown = s.countdown := rfl

@[simp] theorem tickOp_params (s : State) : (tickOp s).params = s.params := rfl

@[simp] theorem tickOp_table (s : State) : (tickOp s).table = s.table := rfl

@[simp] theorem tickOp_ready (s : State) : (tickOp s).ready = s.ready := rfl

@[simp] theorem tickOp_busy (s : State) : (tickOp s).busy = s.busy := rfl

@[simp] theorem tickOp_capLen (s : State) : (tickOp s).capLen = s.capLen := rfl

@[simp] theorem tickOp_capByte (s : State) : (tickOp s).capByte = s.capByte := rfl

@[simp] theorem tickOp_valid (s : State) : (tickOp s).valid = s.valid := rfl

@[simp] theorem tickOp_res (s : State) : (tickOp s).res = s.res := rfl

@[simp] theorem tickOp_port (s : State) : (tickOp s).port = s.port := rfl

@[simp] theorem tickOp_stage (s : State) : (tickOp s).stage = s.stage := rfl

@[simp] theorem tickOp_wires (s : State) : (tickOp s).wires = s.wires := rfl

@[simp] theorem tickOp_countdown (s : State) : (tickOp s).countdown = s.countdown - 1 := rfl

@[simp] theorem resetWith_params (p : Params) : (State.resetWith p).params = p := rfl

@[simp] theorem resetWith_table (p : Params) : (State.resetWith p).table = loadTable p.lutInit := rfl

@[simp] theorem resetWith_ready (p : Params) : (State.resetWith p).ready = true := rfl

@[simp] theorem resetWith_busy (p : Params) : (State.resetWith p).busy = false := rfl

@[simp] theorem resetWith_capLen (p : Params) : (State.resetWith p).capLen = 0 := rfl

@[simp] theorem resetWith_capByte (p : Params) : (State.resetWith p).capByte = Vector.replicate 14 0 := rfl

@[simp] theorem resetWith_valid (p : Params) : (State.resetWith p).valid = false := rfl

@[simp] theorem resetWith_res (p : Params) : (State.resetWith p).res = Result.zero := rfl

@[simp] theorem resetWith_port (p : Params) : (State.resetWith p).port = Port.idle := rfl

@[simp] theorem resetWith_stage (p : Params) : (State.resetWith p).stage = .ovrDutyBit := rfl

@[simp] theorem resetWith_wires (p : Params) : (State.resetWith p).wires = Wires.zero := rfl

@[simp] theorem resetWith_countdown (p : Params) : (State.resetWith p).countdown = 0 := rfl

/-- Reset is the reset of the machine's own parameters. -/
@[simp] theorem reset_eq : State.reset = State.resetWith Config.params := rfl

end Sys2Proof.Machine
end

