-- ==== Sys2Proof/Laws/Fetch.lean ====
section
/-! SUPPORT. What the decoder answers on the bytes the machine fetches, and what running the fetched
operation does to a DECODE in flight. -/

namespace Sys2Proof.Machine

/-- The table address as a number (R30): mode * 8 + unit_index. -/
theorem lutAddress_toNat (c : Nibble) (u : UnitIndex) :
    (lutAddress c u).toNat = c.toNat * 8 + u.toNat := by
  have h : ∀ (c : Nibble) (u : UnitIndex), (lutAddress c u).toNat = c.toNat * 8 + u.toNat := by decide
  exact h c u

/-- A masked byte of the raw array is the low 7 bits of the captured byte. -/
theorem maskFrame_get (f : Frame) (i : Nat) (h : i < 14) : (maskFrame f)[i] = maskByte f[i] := by
  simp [maskFrame]

/-- A MODESEL byte decodes to the row of its code. -/
theorem decodeModesel_byte (c : Nibble) (u : UnitIndex) :
    decodeModesel (modeselByte c u) = .instr (modeselOf c u) := by
  have h : ∀ (c : Nibble) (u : UnitIndex),
      (modeselByte c u)[7] = false ∧ (modeselByte c u).extractLsb' 3 4 = c ∧
        (modeselByte c u).extractLsb' 0 3 = u := by decide
  obtain ⟨h1, h2, h3⟩ := h c u
  simp [decodeModesel, h1, h2, h3]

/-- The bytes of a length and a frame decode to DECODE of them. -/
theorem decodeAs_frameBytes (len : Len) (f : Frame) :
    decodeAs .frame14 (frameBytes len f) = .instr (.decode len f) := by
  have hl : (len.extractLsb' 8 8 ++ len.extractLsb' 0 8 : BitVec 16) = len := by
    apply BitVec.eq_of_getLsbD_eq
    intro i hi
    simp only [BitVec.getLsbD_append, BitVec.getLsbD_extractLsb']
    split
    · simp_all
    · simp_all; omega
  have hf : #v[f[0], f[1], f[2], f[3], f[4], f[5], f[6], f[7], f[8], f[9], f[10], f[11], f[12], f[13]] = f := by
    ext i hi
    interval_cases i <;> rfl
  simp only [frameBytes, decodeAs, hl, hf]

/-- What the decoder answers on the bytes of an override row. -/
theorem decodeOvr_raw (b : RawByte) :
    decodeOvr (rawInByte b) 10 0x1 = (if firesFreq b then .instr (.ovrFreq b) else .reject .selectorNotFired) ∧
    decodeOvr (rawInByte b) 7 0x8 =
      (if firesDutyBit b then .instr (.ovrDutyBit b) else .reject .selectorNotFired) ∧
    decodeOvr (rawInByte b) 7 0xF =
      (if firesDutyEq b then .instr (.ovrDutyEq b) else .reject .selectorNotFired) := by
  have h : ∀ b : RawByte, (rawInByte b)[7] = false ∧ (rawInByte b).extractLsb' 0 7 = b := by decide
  obtain ⟨h1, h2⟩ := h b
  simp [decodeOvr, h1, h2]

/-- Every MODESEL row runs the lookup at its code. -/
theorem exec_modeselOf (c : Nibble) (u : UnitIndex) (s : State) :
    exec (modeselOf c u) s = .next (lookupOp c u s) := by
  obtain ⟨n, hn⟩ : ∃ n, c.toNat = n := ⟨_, rfl⟩
  have hlt : n < 16 := hn ▸ c.isLt
  have hc : c = BitVec.ofNat 4 n := by rw [← hn, BitVec.ofNat_toNat, BitVec.setWidth_eq]
  subst hc
  interval_cases n <;> rfl

/-- What the lookup of the DECODE in flight, presented by a state, does to another. -/
def advanceLookup (s t : State) : State :=
  lookupOp s.wires.modeRes (extUnitIndex (maskFrame s.capByte)) t

/-- The same from the frequency override on. -/
def advanceFreq (s t : State) : State :=
  if firesFreq (maskFrame s.capByte)[10] then freqOverrideOp true t else advanceLookup s t

/-- The same from the second duty term on. -/
def advanceDutyEq (s t : State) : State :=
  if firesDutyEq (maskFrame s.capByte)[7] then dutyTermOp true .ovrFreq t else advanceFreq s t

/-- The same from the first duty term on. -/
def advanceDutyBit (s t : State) : State :=
  if firesDutyBit (maskFrame s.capByte)[7] then dutyTermOp true .ovrDutyEq t else advanceDutyEq s t

/-- What the selectors do while LATENCY passes. -/
def advanceSelector (s : State) : State :=
  match s.stage with
  | .ovrDutyBit => advanceDutyBit s (tickOp s)
  | .ovrDutyEq => advanceDutyEq s (tickOp s)
  | .ovrFreq => advanceFreq s (tickOp s)
  | .lookup => advanceLookup s (tickOp s)
  | .complete => tickOp s

/-- What one step of the DECODE in flight does. -/
def advance (s : State) : State :=
  if s.countdown = 0 then completeOp s.capLen s.capByte s else advanceSelector s

/-- The fetched bytes of the lookup run it. -/
theorem fetchLookup_runs (s t : State) : ∃ i, decodeAs (fetchLookup s).1 (fetchLookup s).2 = .instr i ∧
    exec i t = .next (advanceLookup s t) :=
  ⟨_, decodeModesel_byte _ _, exec_modeselOf _ _ t⟩

/-- The fetched bytes from the frequency override on run it. -/
theorem fetchFreq_runs (s t : State) : ∃ i, decodeAs (fetchFreq s).1 (fetchFreq s).2 = .instr i ∧
    exec i t = .next (advanceFreq s t) := by
  unfold fetchFreq advanceFreq
  split
  · rename_i h
    refine ⟨.ovrFreq (maskFrame s.capByte)[10], ?_, ?_⟩
    · simp only [decodeAs]; rw [(decodeOvr_raw _).1, if_pos h]
    · simp only [exec, execOvrFreq, h]
  · exact fetchLookup_runs s t

/-- The fetched bytes from the second duty term on run it. -/
theorem fetchDutyEq_runs (s t : State) : ∃ i, decodeAs (fetchDutyEq s).1 (fetchDutyEq s).2 = .instr i ∧
    exec i t = .next (advanceDutyEq s t) := by
  unfold fetchDutyEq advanceDutyEq
  split
  · rename_i h
    refine ⟨.ovrDutyEq (maskFrame s.capByte)[7], ?_, ?_⟩
    · simp only [decodeAs]; rw [(decodeOvr_raw _).2.2, if_pos h]
    · simp only [exec, execOvrDutyEq, h]
  · exact fetchFreq_runs s t

/-- The fetched bytes from the first duty term on run it. -/
theorem fetchDutyBit_runs (s t : State) : ∃ i, decodeAs (fetchDutyBit s).1 (fetchDutyBit s).2 = .instr i ∧
    exec i t = .next (advanceDutyBit s t) := by
  unfold fetchDutyBit advanceDutyBit
  split
  · rename_i h
    refine ⟨.ovrDutyBit (maskFrame s.capByte)[7], ?_, ?_⟩
    · simp only [decodeAs]; rw [(decodeOvr_raw _).2.1, if_pos h]
    · simp only [exec, execOvrDutyBit, h]
  · exact fetchDutyEq_runs s t

/-- A step that runs an operation the bytes decode to. -/
theorem step_runs {s : State} {i : Instr} (hr : s.port.rst = false) (hb : s.busy = true)
    (hf : fetched s = some (.instr i)) : step s = exec i (tickOp s) := by
  simp only [step, hr, hb, hf, Bool.false_eq_true, if_false, if_true]

/-- A step that presents bytes the selectors run. -/
theorem step_presents {s u : State} {b : Format × List Byte} (hr : s.port.rst = false) (hb : s.busy = true)
    (hf : fetch s = some b) (h : ∃ i, decodeAs b.1 b.2 = .instr i ∧ exec i (tickOp s) = .next u) :
    step s = .next u := by
  obtain ⟨i, hi, he⟩ := h
  rw [step_runs hr hb (i := i) (by simp only [fetched, hf, Option.map_some, hi]), he]

/-- All that a step of a busy block does when there is no reset: COMPLETE if no LATENCY is left, else the
next selector or nothing. -/
theorem step_advances {s : State} (hr : s.port.rst = false) (hb : s.busy = true) :
    step s = .next (advance s) := by
  unfold advance
  split
  · rename_i hc
    have ht : tickOp s = s := by cases s; simp_all [tickOp]
    refine step_presents hr hb (b := fetchComplete s) (by simp only [fetch, hc, if_true])
      ⟨.decode s.capLen s.capByte, decodeAs_frameBytes _ _, ?_⟩
    rw [ht]; rfl
  · rename_i hc
    unfold advanceSelector
    cases hs : s.stage with
    | ovrDutyBit => exact step_presents hr hb (by simp only [fetch, hc, if_false, hs]) (fetchDutyBit_runs s _)
    | ovrDutyEq => exact step_presents hr hb (by simp only [fetch, hc, if_false, hs]) (fetchDutyEq_runs s _)
    | ovrFreq => exact step_presents hr hb (by simp only [fetch, hc, if_false, hs]) (fetchFreq_runs s _)
    | lookup => exact step_presents hr hb (by simp only [fetch, hc, if_false, hs]) (fetchLookup_runs s _)
    | complete => simp only [step, fetched, fetch, hr, hb, hc, hs, Bool.false_eq_true, if_false, if_true, Option.map_none]

/-- What the selectors leave while LATENCY passes: everything but the wires, the stage and the count. -/
theorem advanceSelector_keeps (s : State) : (advanceSelector s).params = s.params ∧
    (advanceSelector s).table = s.table ∧ (advanceSelector s).ready = s.ready ∧
    (advanceSelector s).busy = s.busy ∧ (advanceSelector s).valid = s.valid ∧
    (advanceSelector s).res = s.res ∧ (advanceSelector s).capLen = s.capLen ∧
    (advanceSelector s).capByte = s.capByte ∧ (advanceSelector s).port = s.port ∧
    (advanceSelector s).countdown = s.countdown - 1 := by
  unfold advanceSelector advanceDutyBit advanceDutyEq advanceFreq advanceLookup
  cases s.stage <;> simp only <;> (repeat' split) <;> simp

end Sys2Proof.Machine
end

