-- ==== Sys2Proof/Laws/Fields.lean ====
section
/-! SUPPORT. The fields of a masked byte in terms of the captured byte, and the flags in terms of the
captured frame. -/

namespace Sys2Proof.Machine

/-- The low nibble of a masked byte as a number. -/
theorem lowNibble_toNat (b : Byte) : ((maskByte b).extractLsb' 0 4).toNat = b.toNat % 16 := by
  revert b; decide

/-- The low three bits of a masked byte as a number. -/
theorem lowThree_toNat (b : Byte) : ((maskByte b).extractLsb' 0 3).toNat = b.toNat % 8 := by
  revert b; decide

/-- A bit of the low nibble of a masked byte is that bit of the byte. -/
theorem lowNibble_bit (b : Byte) (k : Fin 4) : ((maskByte b).extractLsb' 0 4).getLsbD k = b.getLsbD k := by
  revert b k; decide

/-- A masked byte as a number. -/
theorem maskByte_toNat (b : Byte) : (maskByte b).toNat = b.toNat % 128 := by revert b; decide

/-- A type bit of a captured frame. -/
theorem extType_bit (f : Frame) (k : Fin 4) : (extType (maskFrame f)).getLsbD k = f[10].getLsbD k := by
  simp only [extType, maskFrame_get]; exact lowNibble_bit _ k

/-- An info bit of a captured frame. -/
theorem extInfo_bit (f : Frame) (k : Fin 4) : (extInfo (maskFrame f)).getLsbD k = f[7].getLsbD k := by
  simp only [extInfo, maskFrame_get]; exact lowNibble_bit _ k

/-- The unit index of a captured frame as a number. -/
theorem extUnitIndex_toNat (f : Frame) : (extUnitIndex (maskFrame f)).toNat = f[0].toNat % 8 := by
  simp only [extUnitIndex, maskFrame_get]; exact lowThree_toNat _

/-- The base mode of a captured frame as a number. -/
theorem extMode_toNat (f : Frame) : (extMode (maskFrame f)).toNat = f[6].toNat % 16 := by
  simp only [extMode, maskFrame_get]; exact lowNibble_toNat _

/-- Which override rows a captured frame fires. -/
theorem fires_frame (f : Frame) : firesFreq (maskFrame f)[10] = f[10].getLsbD 0 ∧
    firesDutyBit (maskFrame f)[7] = f[7].getLsbD 3 ∧
    firesDutyEq (maskFrame f)[7] = decide (f[7].toNat % 16 = 8) := by
  have h : ∀ b : Byte, firesFreq (maskByte b) = b.getLsbD 0 ∧ firesDutyBit (maskByte b) = b.getLsbD 3 ∧
      firesDutyEq (maskByte b) = decide (b.toNat % 16 = 8) := by decide
  simp only [maskFrame_get]
  exact ⟨(h _).1, (h _).2.1, (h _).2.2⟩

end Sys2Proof.Machine
end

