-- ==== Sys2Proof/Laws/Fp.lean ====
section
/-! SUPPORT. The value of a measurement in the default format, with the format's operations in place. -/

namespace Sys2Proof.Machine

/-- FPVALUE in binary64. -/
theorem fpValue_binary64 (m : Measurement) : fpValue binary64 m =
    if m.negative then
      binary64Neg (binary64Div (binary64OfNat m.magnitude.toNat) (binary64OfNat m.scale.toNat))
    else binary64Div (binary64OfNat m.magnitude.toNat) (binary64OfNat m.scale.toNat) := rfl

/-- The conversion of 0. -/
theorem binary64OfNat_zero : binary64OfNat 0 = 0#64 := by decide

end Sys2Proof.Machine
end

