-- ==== Sys2Proof/Laws/Lut.lean ====
section
/-! SUPPORT. The laws of the table space: reading after writing, the canonical form, the reset load, and
that the machine's parameters are admitted. -/

namespace Sys2Proof.Machine

@[simp] theorem read_nil (a : Nat) : Memory.read [] a = absentWord := rfl

@[simp] theorem read_cons (b : Nat) (w : LutWord) (m : Memory) (a : Nat) :
    Memory.read ((b, w) :: m) a = if b = a then w else Memory.read m a := rfl

/-- Nothing is listed below the lowest address of a canonical memory. -/
theorem read_of_lt {m : Memory} : ∀ {lo a : Nat}, Memory.wfFrom lo m = true → a < lo →
    Memory.read m a = absentWord := by
  induction m with
  | nil => intros; rfl
  | cons c m ih =>
    intro lo a h hlt
    simp only [Memory.wfFrom, Bool.and_eq_true, decide_eq_true_eq] at h
    rw [read_cons, if_neg (by omega)]
    exact ih h.2 (by omega)

/-- A canonical memory from one address up is canonical from any lower one. -/
theorem wfFrom_mono {m : Memory} {lo lo' : Nat} (h : Memory.wfFrom lo m = true) (hle : lo' ≤ lo) :
    Memory.wfFrom lo' m = true := by
  cases m with
  | nil => rfl
  | cons c m =>
    simp only [Memory.wfFrom, Bool.and_eq_true, decide_eq_true_eq] at h ⊢
    exact ⟨⟨⟨by omega, h.1.1.2⟩, h.1.2⟩, h.2⟩

/-- A write keeps the canonical form above any bound it respects. -/
theorem write_wfFrom (a : Nat) (w : LutWord) (ha : a < lutSize) :
    ∀ (m : Memory) (lo : Nat), lo ≤ a → Memory.wfFrom lo m = true →
      Memory.wfFrom lo (Memory.write m a w) = true := by
  intro m
  induction m with
  | nil =>
    intro lo hlo _
    by_cases hw : w = absentWord <;> simp [Memory.write, Memory.wfFrom, hw, hlo, ha]
  | cons c m ih =>
    intro lo hlo h
    have hc := h
    simp only [Memory.wfFrom, Bool.and_eq_true, decide_eq_true_eq] at hc
    obtain ⟨⟨⟨hlc, hcs⟩, hne⟩, htl⟩ := hc
    rw [Memory.write]
    split_ifs with h1 h2 h3 h4
    · exact h
    · simp [Memory.wfFrom, hlo, ha, h2, hcs, hne, htl, h1]
    · exact wfFrom_mono htl (by omega)
    · subst h3
      simp [Memory.wfFrom, hlo, ha, h4, htl]
    · have := ih (c.1 + 1) (by omega) htl
      simp [Memory.wfFrom, hlc, hcs, hne, this]

/-- A write keeps the canonical form. -/
theorem write_wf {m : Memory} {a : Nat} {w : LutWord} (ha : a < lutSize) (h : Memory.wf m = true) :
    Memory.wf (Memory.write m a w) = true := write_wfFrom a w ha m 0 (Nat.zero_le _) h

/-- A read after a write, at the written address and elsewhere. -/
theorem read_write {m : Memory} {lo : Nat} (h : Memory.wfFrom lo m = true) (a b : Nat) (w : LutWord) :
    Memory.read (Memory.write m a w) b = if a = b then w else Memory.read m b := by
  induction m generalizing lo with
  | nil =>
    by_cases hw : w = absentWord <;> by_cases hab : a = b <;> simp [Memory.write, hw, hab]
  | cons c m ih =>
    simp only [Memory.wfFrom, Bool.and_eq_true, decide_eq_true_eq] at h
    obtain ⟨⟨⟨hlc, hcs⟩, hne⟩, htl⟩ := h
    rw [Memory.write]
    split_ifs with h1 h2 h3 h4 h5 h6 h7 h8
    · subst h3
      rw [read_cons, if_neg (by omega), read_of_lt htl (by omega), h2]
    · rfl
    · subst h4; simp
    · rw [read_cons, if_neg h4]
    · subst h5; subst h7; rw [read_of_lt htl (by omega), h6]
    · subst h5; rw [read_cons, if_neg h7]
    · subst h5; subst h8; simp
    · subst h5; rw [read_cons, read_cons, if_neg h8, if_neg h8]
    · rename_i h9
      rw [read_cons, if_neg (by omega), ih htl, if_pos h9]
    · rename_i h9
      rw [read_cons, read_cons, ih htl, if_neg h9]

/-- The reset load is canonical. -/
theorem ofWords_wfFrom : ∀ (ws : List LutWord) (a : Nat), a + ws.length ≤ lutSize →
    Memory.wfFrom a (Memory.ofWords a ws) = true := by
  intro ws
  induction ws with
  | nil => intros; rfl
  | cons w ws ih =>
    intro a h
    simp only [List.length_cons] at h
    have htl := ih (a + 1) (by omega)
    rw [Memory.ofWords]
    split_ifs with hw
    · exact wfFrom_mono htl (by omega)
    · simp [Memory.wfFrom, hw, htl]; omega

/-- The reset load holds the words it was given. -/
theorem read_ofWords : ∀ (ws : List LutWord) (a k : Nat), a + ws.length ≤ lutSize →
    Memory.read (Memory.ofWords a ws) (a + k) = (ws[k]?).getD absentWord := by
  intro ws
  induction ws with
  | nil => intros; rfl
  | cons w ws ih =>
    intro a k h
    simp only [List.length_cons] at h
    have hlen : a + 1 + ws.length ≤ lutSize := by omega
    have htl := ofWords_wfFrom ws (a + 1) hlen
    rw [Memory.ofWords]
    cases k with
    | zero =>
      split_ifs with hw
      · rw [Nat.add_zero, read_of_lt htl (by omega), hw]; rfl
      · simp
    | succ k =>
      have hs := ih (a + 1) k hlen
      have heq : a + 1 + k = a + (k + 1) := by omega
      rw [heq] at hs
      split_ifs with hw
      · rw [hs]; simp
      · rw [read_cons, if_neg (by omega), hs]; simp

/-- `T` is canonical after the reset load. -/
theorem loadTable_wf (v : Vector LutWord 128) : Memory.wf (loadTable v) = true :=
  ofWords_wfFrom v.toList 0 (by simp [lutSize])

/-- `T` reads as `LUT_INIT` has it after the reset load. -/
theorem loadTable_read (v : Vector LutWord 128) (a : Nat) (h : a < 128) :
    Memory.read (loadTable v) a = v[a] := by
  have := read_ofWords v.toList 0 a (by simp [lutSize])
  rw [Nat.zero_add] at this
  rw [loadTable, this]
  simp [h]

/-- After the reset load the slot (code, unit index) reads as `LUT_INIT` has it. -/
theorem lutRead_slot (p : Params) (c : Nibble) (u : UnitIndex) :
    lutRead (loadTable p.lutInit) (lutAddress c u) = p.slot c u :=
  loadTable_read p.lutInit _ (lutAddress c u).isLt

/-- Under admitted parameters the slot VOLTAGE 4 is present: its scale is not 0 (R149(d), (f)). -/
theorem voltage4_present {p : Params} (hp : p.admitted = true) : lutPresent (p.slot 0xB 4) = true := by
  simp only [Params.admitted, Bool.and_eq_true, Params.fixedScales, beq_iff_eq] at hp
  have hw : Params.wordOk (p.slot 0xB 4) = true :=
    List.all_eq_true.1 hp.1.1.2 _ (by simp [Params.slot])
  by_contra h
  simp only [Params.wordOk, h, hp.2.1, if_false, Bool.and_eq_true] at hw
  exact absurd hw.2 (by decide)

/-- The candidate passes the check of R80 and R149. -/
theorem candidate_admitted : Config.candidate.admitted = true := by decide

/-- LATENCY bears on no condition of R80 and R149. -/
theorem admitted_latency (p : Params) (n : Nat) : ({ p with latency := n } : Params).admitted = p.admitted := rfl

/-- The parameters the machine is built with pass the check of R80 and R149. -/
theorem params_admitted : Config.params.admitted = true := by
  unfold Config.params
  split
  · assumption
  · rw [admitted_latency]; exact candidate_admitted

end Sys2Proof.Machine
end

