-- ==== Sys2Proof/Laws/PerInstr.lean ====
section
/-! SUPPORT. Per-instruction laws of the encoding. Family EncodedSize: an instruction's bytes are as many
as its format has (spec/30_encoding.md R88; log entry 7). -/

namespace Sys2Proof.Laws

/-- The number of bytes of a format. -/
def formatSize : Format → Nat
  | .frame14 => 16
  | .modesel => 1
  | .ovr => 3

/-- The encoding of an instruction has the size of its format. -/
def EncodedSize.Statement (i : Instr) : Prop := (encode i).2.length = formatSize (encode i).1

theorem EncodedSize.decode (len : Len) (frame : Frame) : EncodedSize.Statement (.decode len frame) := rfl

theorem EncodedSize.modeselCurrentA (u : UnitIndex) : EncodedSize.Statement (.modeselCurrentA u) := rfl

theorem EncodedSize.modeselDiode (u : UnitIndex) : EncodedSize.Statement (.modeselDiode u) := rfl

theorem EncodedSize.modeselFrequency (u : UnitIndex) : EncodedSize.Statement (.modeselFrequency u) := rfl

theorem EncodedSize.modeselResistance (u : UnitIndex) : EncodedSize.Statement (.modeselResistance u) := rfl

theorem EncodedSize.modeselInvalid4 (u : UnitIndex) : EncodedSize.Statement (.modeselInvalid4 u) := rfl

theorem EncodedSize.modeselContinuity (u : UnitIndex) : EncodedSize.Statement (.modeselContinuity u) := rfl

theorem EncodedSize.modeselCapacitance (u : UnitIndex) : EncodedSize.Statement (.modeselCapacitance u) := rfl

theorem EncodedSize.modeselInvalid7 (u : UnitIndex) : EncodedSize.Statement (.modeselInvalid7 u) := rfl

theorem EncodedSize.modeselDuty (u : UnitIndex) : EncodedSize.Statement (.modeselDuty u) := rfl

theorem EncodedSize.modeselInvalid9 (u : UnitIndex) : EncodedSize.Statement (.modeselInvalid9 u) := rfl

theorem EncodedSize.modeselInvalidA (u : UnitIndex) : EncodedSize.Statement (.modeselInvalidA u) := rfl

theorem EncodedSize.modeselVoltage (u : UnitIndex) : EncodedSize.Statement (.modeselVoltage u) := rfl

theorem EncodedSize.modeselInvalidC (u : UnitIndex) : EncodedSize.Statement (.modeselInvalidC u) := rfl

theorem EncodedSize.modeselCurrentUa (u : UnitIndex) : EncodedSize.Statement (.modeselCurrentUa u) := rfl

theorem EncodedSize.modeselInvalidE (u : UnitIndex) : EncodedSize.Statement (.modeselInvalidE u) := rfl

theorem EncodedSize.modeselCurrentMa (u : UnitIndex) : EncodedSize.Statement (.modeselCurrentMa u) := rfl

theorem EncodedSize.ovrFreq (b : RawByte) : EncodedSize.Statement (.ovrFreq b) := rfl

theorem EncodedSize.ovrDutyBit (b : RawByte) : EncodedSize.Statement (.ovrDutyBit b) := rfl

theorem EncodedSize.ovrDutyEq (b : RawByte) : EncodedSize.Statement (.ovrDutyEq b) := rfl

end Sys2Proof.Laws
end

