-- ==== Sys2Proof/Tests/Slice0.lean ====
section
/-! SUPPORT. Tests of the model against spec/95_test_vectors.md and the encodings of spec/30_encoding.md, and a
witness for the hypotheses of each statement. -/

namespace Sys2Proof.Tests

open Sys2Proof.Machine

/-! ### Well-formedness: one ill-formed term per check -/

theorem test_illFormed_ovrFreq : WellFormed (.ovrFreq 0x38) = false := by decide
theorem test_illFormed_ovrDutyBit : WellFormed (.ovrDutyBit 0x37) = false := by decide
theorem test_illFormed_ovrDutyEq : WellFormed (.ovrDutyEq 0x39) = false := by decide

/-! ### One word per constructor, written out from R79, R88 (containers: log entry 7) -/

/-- V1, Scenario A's frame. -/
def scenarioA : Frame :=
  #v[0x34, 0x32, 0x32, 0xB5, 0x38, 0xB0, 0x3B, 0x31, 0xB0, 0xB0, 0x38, 0xB0, 0x0D, 0x8A]

/-- V2, Scenario B's frame. -/
def scenarioB : Frame :=
  #v[0xB0, 0xB0, 0xB0, 0xB3, 0x32, 0xB0, 0xB6, 0xB0, 0xB0, 0xB0, 0x32, 0xB0, 0x0D, 0x8A]

theorem test_word_decode : decodeAs .frame14 [0x0E, 0x00, 0x34, 0x32, 0x32, 0xB5, 0x38, 0xB0, 0x3B, 0x31,
    0xB0, 0xB0, 0x38, 0xB0, 0x0D, 0x8A] = .instr (.decode 14 scenarioA) := by decide
theorem test_word_currentA : decodeAs .modesel [0b0_0000_000] = .instr (.modeselCurrentA 0) := by decide
theorem test_word_diode : decodeAs .modesel [0b0_0001_001] = .instr (.modeselDiode 1) := by decide
theorem test_word_frequency : decodeAs .modesel [0b0_0010_111] = .instr (.modeselFrequency 7) := by decide
theorem test_word_resistance : decodeAs .modesel [0b0_0011_110] = .instr (.modeselResistance 6) := by decide
theorem test_word_invalid4 : decodeAs .modesel [0b0_0100_000] = .instr (.modeselInvalid4 0) := by decide
theorem test_word_continuity : decodeAs .modesel [0b0_0101_010] = .instr (.modeselContinuity 2) := by decide
theorem test_word_capacitance : decodeAs .modesel [0b0_0110_000] = .instr (.modeselCapacitance 0) := by decide
theorem test_word_invalid7 : decodeAs .modesel [0b0_0111_011] = .instr (.modeselInvalid7 3) := by decide
theorem test_word_duty : decodeAs .modesel [0b0_1000_000] = .instr (.modeselDuty 0) := by decide
theorem test_word_invalid9 : decodeAs .modesel [0b0_1001_101] = .instr (.modeselInvalid9 5) := by decide
theorem test_word_invalidA : decodeAs .modesel [0b0_1010_000] = .instr (.modeselInvalidA 0) := by decide
theorem test_word_voltage : decodeAs .modesel [0b0_1011_100] = .instr (.modeselVoltage 4) := by decide
theorem test_word_invalidC : decodeAs .modesel [0b0_1100_001] = .instr (.modeselInvalidC 1) := by decide
theorem test_word_currentUa : decodeAs .modesel [0b0_1101_001] = .instr (.modeselCurrentUa 1) := by decide
theorem test_word_invalidE : decodeAs .modesel [0b0_1110_000] = .instr (.modeselInvalidE 0) := by decide
theorem test_word_currentMa : decodeAs .modesel [0b0_1111_001] = .instr (.modeselCurrentMa 1) := by decide
theorem test_word_ovrFreq : decodeAs .ovr [0b00111001, 10, 0b0001] = .instr (.ovrFreq 0x39) := by decide
theorem test_word_ovrDutyBit : decodeAs .ovr [0b00111001, 7, 0b1000] = .instr (.ovrDutyBit 0x39) := by decide
theorem test_word_ovrDutyEq : decodeAs .ovr [0b00111000, 7, 0b1111] = .instr (.ovrDutyEq 0x38) := by decide
theorem test_reject_size : decodeAs .frame14 [0x0E] = .reject .wrongSize := by decide
theorem test_reject_bit7 : decodeAs .modesel [0xDC] = .reject .bit7Set := by decide
theorem test_reject_selector : decodeAs .ovr [0x38, 9, 0x8] = .reject .noSuchSelector := by decide
theorem test_reject_notFired : decodeAs .ovr [0x38, 10, 0x1] = .reject .selectorNotFired := by decide

/-! ### Instructions against spec/95_test_vectors.md -/

/-- The candidate table, as the vectors marked (candidate) use it. -/
def tableC : Memory := loadTable Config.candidateLut

/-- The reset state of a block with the candidate table. -/
def resetC : State := State.resetWith Config.candidate

/-- A test on the next state of an outcome. -/
def nextIs (o : Host.Outcome State Fault Refusal) (p : State → Bool) : Bool :=
  match o with
  | .next t => p t
  | .fault _ => false
  | .refused _ => false

/-- The three lookup wires. -/
def lookupIs (i : Instr) (hit : Bool) (unitId : Nibble) (scale : BitVec 16) : Bool :=
  nextIs (exec i resetC) fun t =>
    t.wires.lutHit == hit && t.wires.unitId == unitId && t.wires.scale == scale

/-- V1: status 0, magnitude 22580, scale 100, mode 0xB, overload and DC. -/
theorem test_V1 : nextIs (exec (.decode 14 scenarioA) resetC) (fun t =>
    decide (t.res.status = .ok) && t.res.meas.magnitude == 22580 && t.res.meas.scale == 100 &&
      t.res.meas.mode == 0xB && t.res.meas.overload && t.res.meas.dc && !t.res.meas.ac && t.valid) = true := by
  decide

/-- V6: byte 3 = 0x35 gives status 2, par 0x3FF7, diagnostics driven, no measurement. -/
theorem test_V6 : nextIs (exec (.decode 14 (scenarioA.set 3 0x35)) resetC) (fun t =>
    decide (t.res.status = .parityMismatch) && t.res.diag.parOk == 0x3FF7 && t.res.diag.modeRes == 0xB &&
      t.res.diag.lutHit && decide (t.res.meas = Measurement.zero)) = true := by decide

/-- M1: FREQUENCY index 4 is unit 10, scale 100. -/
theorem test_frequency_4 : lookupIs (.modeselFrequency 4) true 10 100 = true := by decide
/-- M12: CAPACITANCE index 7 is unit 14, scale 100. -/
theorem test_capacitance_7 : lookupIs (.modeselCapacitance 7) true 14 100 = true := by decide
/-- V2: CAPACITANCE index 0 is unit 12, scale 1000. -/
theorem test_capacitance_0 : lookupIs (.modeselCapacitance 0) true 12 1000 = true := by decide
/-- V1: VOLTAGE index 4 is unit 2, scale 100. -/
theorem test_voltage_4 : lookupIs (.modeselVoltage 4) true 2 100 = true := by decide
/-- M10: VOLTAGE index 5 has no entry. -/
theorem test_voltage_5 : lookupIs (.modeselVoltage 5) false 0 0 = true := by decide
/-- M4: DUTY index 0 is unit 15, scale 10. -/
theorem test_duty_0 : lookupIs (.modeselDuty 0) true 15 10 = true := by decide
/-- M8: DUTY index 1 has no entry. -/
theorem test_duty_1 : lookupIs (.modeselDuty 1) false 0 0 = true := by decide
/-- R153: the last entry of each other row. -/
theorem test_currentA_0 : lookupIs (.modeselCurrentA 0) true 3 1000 = true := by decide
theorem test_currentMa_1 : lookupIs (.modeselCurrentMa 1) true 4 100 = true := by decide
theorem test_currentUa_1 : lookupIs (.modeselCurrentUa 1) true 5 10 = true := by decide
theorem test_resistance_6 : lookupIs (.modeselResistance 6) true 8 100 = true := by decide
theorem test_continuity_0 : lookupIs (.modeselContinuity 0) true 6 100 = true := by decide
theorem test_diode_1 : lookupIs (.modeselDiode 1) false 0 0 = true := by decide
/-- V4 and R80: the codes that name no mode have no entry. -/
theorem test_invalidA : lookupIs (.modeselInvalidA 0) false 0 0 = true := by decide
theorem test_invalid4 : lookupIs (.modeselInvalid4 0) false 0 0 = true := by decide
theorem test_invalid7 : lookupIs (.modeselInvalid7 0) false 0 0 = true := by decide
theorem test_invalid9 : lookupIs (.modeselInvalid9 0) false 0 0 = true := by decide
theorem test_invalidC : lookupIs (.modeselInvalidC 0) false 0 0 = true := by decide
theorem test_invalidE : lookupIs (.modeselInvalidE 0) false 0 0 = true := by decide
/-- M5: info 0b1001 fires the first duty term only. -/
theorem test_ovrDutyBit_M5 : nextIs (exec (.ovrDutyBit 0x39) resetC) (fun t =>
    t.wires.dutyCond && t.wires.modeRes == 0x8) = true := by decide
theorem test_ovrDutyEq_M5 : nextIs (exec (.ovrDutyEq 0x39) resetC) (fun t =>
    !t.wires.dutyCond && t.wires.modeRes == 0) = true := by decide
/-- A type byte without the frequency button overrides nothing. -/
theorem test_ovrFreq_off : nextIs (exec (.ovrFreq 0x38) { resetC with wires := { Wires.zero with modeRes := 0xB } })
    (fun t => t.wires.modeRes == 0xB) = true := by decide

/-! ### Stage rules -/

/-- M6: both flags, the mode is FREQUENCY and both predicates are 1; unit 9, scale 100. -/
theorem test_M6 : (fun r : Result => (r.status, r.meas.mode, r.meas.freq, r.meas.duty, r.meas.unitId, r.meas.scale))
    (decodeFrame Config.candidate 14 (frameOfFields 0 #v[0, 0, 5, 0, 0] 0xB 0b1000 false 1) tableC) =
      (.ok, 0x2, true, true, 9, 100) := by decide
/-- P8: a parity error and the mode 0xA give status 2, par 0x3FDF, lut_hit 0. -/
theorem test_P8 : (fun r : Result => (r.status, r.diag.parOk, r.diag.lutHit))
    (decodeFrame Config.candidate 14 (flipParity (frameOfFields 0 #v[0, 0, 0, 0, 0] 0xA 0 false 0) 5) tableC) =
      (.parityMismatch, 0x3FDF, false) := by decide
/-- S2: digits 15 give 166665. -/
theorem test_S2 : magnitude #v[15, 15, 15, 15, 15] = 166665 := by decide
/-- S3: digits 0,0,0,1,10 give 20. -/
theorem test_S3 : magnitude #v[0, 0, 0, 1, 10] = 20 := by decide
/-- V1: 22580 / 100 in binary64 is the value nearest 225.8. -/
theorem test_value_V1 : binary64Of false (binary64Round 22580 100) = 0x406C39999999999A := by decide
/-- V2: 320 / 1000 in binary64 is the value nearest 0.32. -/
theorem test_value_V2 : binary64Of false (binary64Round 320 1000) = 0x3FD47AE147AE147B := by decide
/-- I4: an integer converts exactly: 22580 = 0x5834, so the exponent is 14 and the fraction starts 0x60D. -/
theorem test_value_ofNat : binary64OfNat 22580 = 0x40D60D0000000000 := by decide
/-- STATUSW of V6's result, a parity mismatch: valid, ready and the code 2 (R28, R230). -/
theorem test_statusWord_parity : nextIs (exec (.decode 14 (scenarioA.set 3 0x35)) resetC)
    (fun t => statusWord t == 0b00001101) = true := by decide
/-- R265 speaks of scripts that end in a DECODE. -/
theorem test_scriptEnds : scriptEnds [.reset, .decode 14 scenarioA] = true ∧
    scriptEnds [.decode 14 scenarioA, .reset] = false ∧ scriptEnds [] = false := by decide
/-- STATUSW after RESET: ready alone (R28, R37). -/
theorem test_statusWord_reset : statusWord resetC = 0b00001000 := by decide

/-! ### Witnesses: a state and operands that meet the hypotheses of each statement -/

/-- A table that lists VOLTAGE 4 and DUTY 0 alone. -/
def smallTable : Memory := [(64, mkLutWord true 15 10), (92, mkLutWord true 2 100)]

/-- The reset state of a block built with the candidate, with that table. -/
def sA : State := { resetC with table := smallTable }

/-- A busy state of a block built with the candidate, at a stage, with steps of LATENCY left. -/
def sBusy (len : Len) (f : Frame) (st : Stage) (left : Nat := 0) : State := inFlight len f st left resetC

/-- M7's frame: base code 0x8, no flag. -/
def frameM7 : Frame := frameOfFields 0 #v[0, 0, 5, 0, 0] 0x8 0 false 0

theorem test_witness_DecodeOfEncodeIsIdentity : WellFormed (.ovrDutyEq 0x38) = true := by decide
theorem test_witness_EncodeOfDecodeIsIdentity : decodeAs .ovr [0x39, 10, 0x1] = .instr (.ovrFreq 0x39) := by decide
theorem test_witness_OtherLengthsAreInvalidLength : (13 : Len).toNat ≠ 14 := by decide
theorem test_witness_ParityVectorPerByte_fail : ∃ i : Fin 14, parOk (scenarioA.set 0 0xB4)[i] = false :=
  ⟨0, by decide⟩
theorem test_witness_ParityVectorPerByte_pass : ∀ i : Fin 14, parOk scenarioA[i] = true := by decide
theorem test_witness_MaskKeepsLowSevenBits :
    ∀ i : Fin 14, scenarioA[i].toNat % 128 = (flipParity scenarioA 3)[i].toNat % 128 := by decide
/-- X1 and X2: byte 0 = BC, bytes 8 and 11 = 70. -/
theorem test_witness_IgnoredBitsChangeNothingElse :
    let g : Frame := ((scenarioA.set 0 0xBC).set 8 0x70).set 11 0x70
    scenarioA[0].toNat % 8 = g[0].toNat % 8 ∧
      (∀ i : Fin 14, (1 ≤ i.val ∧ i.val ≤ 7) ∨ i.val = 10 → scenarioA[i].toNat % 16 = g[i].toNat % 16) ∧
      scenarioA[9].getLsbD 3 = g[9].getLsbD 3 ∧
      ((∀ i : Fin 14, parOk scenarioA[i] = true) ↔ ∀ i : Fin 14, parOk g[i] = true) := by decide
/-- A frame with the frequency button and the mode nibble 0xA. -/
theorem test_witness_OverrideReplacesInvalidBase_freq :
    let f := frameOfFields 0 #v[1, 2, 3, 4, 5] 0xA 0 false 1
    f[10].getLsbD 0 = true ∧ (0 : UnitIndex).toNat = f[0].toNat % 8 ∧ ∀ i : Fin 14, parOk f[i] = true := by decide
/-- M9. -/
theorem test_witness_OverrideReplacesInvalidBase_duty :
    let f := frameOfFields 0 #v[0, 0, 5, 0, 0] 0xA 0b1000 false 0
    f[10].getLsbD 0 = false ∧ f[7].getLsbD 3 = true ∧ f[6].toNat % 16 = 0xA := by decide
theorem test_witness_BaseCodeSelectsModeWithoutFlag_duty :
    frameM7[10].getLsbD 0 = false ∧ frameM7[7].getLsbD 3 = false ∧
      frameM7[6].toNat % 16 = (sA.params.modeCode .duty).toNat ∧ parAll frameM7 = true ∧
      lutPresent (frameWord sA.params (maskFrame frameM7) sA.table) = true := by decide
theorem test_witness_BaseCodeSelectsModeWithoutFlag_frequency :
    let f := frameOfFields 0 #v[0, 0, 0, 0, 0] 0x2 0 false 0
    f[10].getLsbD 0 = false ∧ f[7].getLsbD 3 = false ∧
      f[6].toNat % 16 = (resetC.params.modeCode .frequency).toNat ∧ parAll f = true ∧
      lutPresent (frameWord resetC.params (maskFrame f) resetC.table) = true := by decide
theorem test_witness_ModeselReadsTheTableWord :
    ((0xB : Nibble), Instr.modeselVoltage 4) ∈ [((0x0 : Nibble), Instr.modeselCurrentA 4), (0xB, .modeselVoltage 4)] := by
  decide
theorem test_witness_SelectorsChangeOnlyWiresAndStage : ∃ t, exec (.ovrDutyBit 0x39) State.reset = .next t := ⟨_, rfl⟩
theorem test_witness_SelectorsLeaveTheOtherWires : ∃ t, exec (modeselOf 0xB 4) State.reset = .next t := ⟨_, rfl⟩
theorem test_witness_LookupHits_admitted : Config.candidate.admitted = true := candidate_admitted
theorem test_witness_LookupHits_miss : parAll (frameOfFields 0 #v[0, 0, 0, 0, 0] 0xA 0 false 0) = true ∧
    lutPresent (frameWord sA.params (maskFrame (frameOfFields 0 #v[0, 0, 0, 0, 0] 0xA 0 false 0)) sA.table) =
      false := by decide
/-- A fact about every address of the table, from the list of them. -/
theorem allSlots {P : Fin 128 → Bool} (h : (List.finRange 128).all P = true) (a : Fin 128) : P a = true :=
  List.all_eq_true.1 h a (List.mem_finRange a)
/-- A row of the candidate has an entry only if its code names a mode. -/
theorem candidate_invalidRows (c : Nibble) (hc : ∀ m : Mode, Config.candidate.modeCode m ≠ c) (j : UnitIndex) :
    lutPresent (Config.candidate.slot c j) = false := by
  have h : Config.candidate.invalidRowsAbsent = true := by decide
  simp only [Params.invalidRowsAbsent, List.all_eq_true, List.mem_range, Bool.or_eq_true, Bool.not_eq_true'] at h
  have hr := h c.toNat c.isLt
  rw [BitVec.ofNat_toNat, BitVec.setWidth_eq] at hr
  rcases hr with hn | hj
  · obtain ⟨m, -, hm⟩ := List.any_eq_true.1 hn
    exact absurd (eq_of_beq hm) (hc m)
  · have := hj j.toNat j.isLt
    rwa [BitVec.ofNat_toNat, BitVec.setWidth_eq] at this
theorem test_witness_Boot_good : Config.candidate.MeetsConditions := by
  refine ⟨?_, ?_, ?_, candidate_invalidRows, fun a => ?_, fun a => ?_, fun a => ?_, fun a => ?_, by decide, by decide⟩
  · intro m n; cases m <;> cases n <;> decide
  · intro m; cases m <;> decide
  · intro m
    cases m
    · exact ⟨5, by decide⟩
    · exact ⟨1, by decide⟩
    · exact ⟨2, by decide⟩
    · exact ⟨2, by decide⟩
    · exact ⟨7, by decide⟩
    · exact ⟨8, by decide⟩
    · exact ⟨8, by decide⟩
    · exact ⟨1, by decide⟩
    · exact ⟨1, by decide⟩
    · exact ⟨1, by decide⟩
  · exact of_decide_eq_true (allSlots (P := fun a => decide (lutPresent Config.candidate.lutInit[a] = true →
      1 ≤ (lutScale Config.candidate.lutInit[a]).toNat)) (by decide) a)
  · exact of_decide_eq_true (allSlots (P := fun a => decide (lutPresent Config.candidate.lutInit[a] = false →
      lutUnitId Config.candidate.lutInit[a] = 0 ∧ lutScale Config.candidate.lutInit[a] = 0)) (by decide) a)
  · exact of_decide_eq_true (allSlots (P := fun a => decide (lutPresent Config.candidate.lutInit[a] = true →
      (lutUnitId Config.candidate.lutInit[a] = 0 ↔ a.val = Config.candidate.emptyUnitSlot.toNat) ∧
      (lutUnitId Config.candidate.lutInit[a] ≠ 0 →
        Config.candidate.unitString (lutUnitId Config.candidate.lutInit[a]) ≠ ""))) (by decide) a)
  · exact of_decide_eq_true (allSlots (P := fun a => decide (a.val = Config.candidate.emptyUnitSlot.toNat →
      lutPresent Config.candidate.lutInit[a] = true)) (by decide) a)
/-- A zero scale in a present slot fails (R149(c)). -/
theorem test_witness_Boot_bad :
    ¬ Params.MeetsConditions { Config.candidate with lutInit := Config.candidateLut.set 0 (mkLutWord true 3 0) } := by
  rintro ⟨_, _, _, _, h, _⟩
  exact absurd (h 0) (by decide)
theorem test_witness_FixedTableEntries : builtAdmitted resetC ∧ tableIsLutInit resetC := ⟨candidate_admitted, rfl⟩
theorem test_witness_goodFrame : parAll scenarioA = true ∧
    lutPresent (frameWord sA.params (maskFrame scenarioA) sA.table) = true := by decide
theorem test_witness_ExactValueTimesScaleIsSignedMagnitude : builtAdmitted resetC ∧ tableIsLutInit resetC ∧
    parAll scenarioA = true ∧ lutPresent (frameWord resetC.params (maskFrame scenarioA) resetC.table) = true :=
  ⟨candidate_admitted, rfl, by decide, by decide⟩
theorem test_witness_IntegersConvertExactlyToBinary64 : 166665 < 2 ^ 53 := by decide
theorem test_witness_FpValue_negative : ({ Measurement.zero with negative := true } : Measurement).negative = true := rfl
theorem test_witness_NegativeZeroKeepsItsSign :
    let m : Measurement := { Measurement.zero with negative := true, scale := 100 }
    m.magnitude = 0 ∧ 1 ≤ m.scale.toNat ∧ m.negative = true := by decide
theorem test_witness_StatusPriority : (14 : Len).toNat = 14 := by decide
/-- V1 against V1 with overload cleared and the parity bit set again. -/
theorem test_witness_RangeFlagsAreNoErrors :
    let g : Frame := scenarioA.set 7 0xB0
    parAll scenarioA = true ∧ parAll g = true ∧
      (∀ i : Fin 14, i.val ≠ 7 → i.val ≠ 9 → i.val ≠ 10 → scenarioA[i] = g[i]) ∧
      scenarioA[7].toNat % 128 / 4 = g[7].toNat % 128 / 4 ∧
      scenarioA[10].getLsbD 0 = g[10].getLsbD 0 := by decide
theorem test_witness_OkDecode : builtAdmitted resetC ∧ tableIsLutInit resetC ∧
    ∃ t, exec (.decode 14 scenarioA) resetC = .next t ∧ t.res.status = .ok :=
  ⟨candidate_admitted, rfl, _, rfl, by decide⟩
theorem test_witness_DecodeWritesOnlyTheResult : ∃ t, exec (.decode 13 scenarioA) resetC = .next t := ⟨_, rfl⟩
theorem test_witness_ResetStep : ({ sBusy 14 scenarioA .lookup with port := { Port.idle with rst := true } } : State).port.rst = true := rfl
/-- A ready block with a request on its pins. -/
def sRequest : State := { State.reset with port := requestPort 14 scenarioA }
theorem test_witness_Accept_enabled : sRequest.port.rst = false ∧ sRequest.ready = true ∧ sRequest.busy = false ∧
    sRequest.port.req = true := ⟨rfl, rfl, rfl, rfl⟩
theorem test_witness_Accept_notReady : ({ sRequest with ready := false } : State).port.rst = false ∧
    ({ sRequest with ready := false } : State).busy = false ∧ ({ sRequest with ready := false } : State).ready = false :=
  ⟨rfl, rfl, rfl⟩
theorem test_witness_Accept_noRequest : State.reset.port.rst = false ∧ State.reset.busy = false ∧
    State.reset.port.req = false := ⟨rfl, rfl, rfl⟩
theorem test_witness_Accept_busy : (sBusy 14 scenarioA .lookup).port.rst = false ∧
    (sBusy 14 scenarioA .lookup).busy = true := ⟨rfl, rfl⟩
theorem test_witness_Complete : (sBusy 14 scenarioA .lookup).port.rst = false ∧
    (sBusy 14 scenarioA .lookup).busy = true ∧ (sBusy 14 scenarioA .lookup).countdown = 0 := ⟨rfl, rfl, rfl⟩
theorem test_witness_StepRuns_fetched :
    fetched (sBusy 14 scenarioA .lookup 1) = some (.instr (.modeselVoltage 4)) := by decide
theorem test_witness_StepRuns_waiting : fetched (sBusy 14 scenarioA .complete 3) = none := by decide
/-- M1's frame, the frequency button alone: OVR_FREQ is fetched from the first stage on. -/
theorem test_fetch_freqOnly : fetched (sBusy 14 (oneByteFrame 10 0x39) .ovrDutyBit 4) = some (.instr (.ovrFreq 0x39)) := by
  decide
/-- M5's info byte: the second duty term does not fire, so the table row is fetched. -/
theorem test_fetch_M5 : fetched (sBusy 14 (oneByteFrame 7 0x39) .ovrDutyEq 3) = some (.instr (.modeselCurrentA 0)) := by
  decide
/-- LATENCY 0: COMPLETE is the step after ACCEPT, with no selector between (R263). -/
theorem test_latency_0 : fetched (sBusy 14 scenarioA .ovrDutyBit 0) = some (.instr (.decode 14 scenarioA)) := by decide
theorem test_witness_PlacedWord : decodeTableWord 16 14 = some (.decode 14 (Vector.replicate 14 0)) := by decide
/-- V5: the completion of a bad length changes RES. -/
theorem test_witness_ResultIsWritten : ∃ t, step (sBusy 13 scenarioA .complete) = .next t ∧
    t.res ≠ (sBusy 13 scenarioA .complete).res := ⟨_, rfl, by decide⟩
theorem test_witness_TableIsWritten_step : ∃ t, step State.reset = .next t := ⟨_, rfl⟩
theorem test_witness_TableIsWritten_reset : ∃ t, step { State.reset with port := { Port.idle with rst := true } } = .next t :=
  ⟨_, rfl⟩
/-- The reset state meets the invariant. -/
theorem test_witness_EveryStepKeepsTheInvariant : Inv State.reset ∧ ∃ t, step State.reset = .next t := by
  refine ⟨⟨loadTable_wf _, ?_, ?_, ?_⟩, _, rfl⟩
  · rintro ⟨h, _⟩; cases h
  · intro h; cases h
  · intro h; cases h
/-- Scenario A at its completion, with the wires its selectors leave. -/
def sEnd : State :=
  { sBusy 14 scenarioA .complete with
    wires := { modeRes := 0xB, dutyCond := false, lutHit := true, unitId := 2, scale := 100 } }
theorem test_witness_PipelineWiresAgreeWithTheResult : Inv sEnd ∧ sEnd.port.rst = false ∧ sEnd.busy = true ∧
    sEnd.countdown = 0 ∧ sEnd.stage = .complete ∧ sEnd.capLen = 14 := by
  refine ⟨⟨loadTable_wf _, ?_, ?_, ?_⟩, rfl, rfl, rfl, rfl, rfl⟩
  · rintro ⟨_, h⟩; cases h
  · intro h; cases h
  · have h : sEnd.wires.dutyCond = dutyCond (extInfo (maskFrame sEnd.capByte)) ∧
        sEnd.wires.modeRes = resolvedMode sEnd.params (maskFrame sEnd.capByte) ∧
        sEnd.wires.lutHit = lutPresent (frameWord sEnd.params (maskFrame sEnd.capByte) sEnd.table) ∧
        sEnd.wires.unitId = lutUnitId (frameWord sEnd.params (maskFrame sEnd.capByte) sEnd.table) ∧
        sEnd.wires.scale = lutScale (frameWord sEnd.params (maskFrame sEnd.capByte) sEnd.table) := by decide
    intro _; exact h
theorem test_witness_DecodeInFlightCompletes : (sBusy 14 scenarioA .ovrDutyBit 2).port.rst = false ∧
    (sBusy 14 scenarioA .ovrDutyBit 2).busy = true ∧ 2 ≤ (sBusy 14 scenarioA .ovrDutyBit 2).countdown :=
  ⟨rfl, rfl, Nat.le_refl 2⟩
theorem test_witness_ScriptResults : resetC.ready = true ∧ resetC.busy = false ∧ tableIsLutInit resetC := ⟨rfl, rfl, rfl⟩
theorem test_witness_NoStateLeaks : (sBusy 14 scenarioB .lookup).params = resetC.params ∧
    (sBusy 14 scenarioB .lookup).table = resetC.table ∧ (sBusy 14 scenarioB .lookup).ready = true ∧ resetC.ready = true :=
  ⟨rfl, rfl, rfl, rfl⟩
/-- Two instances, one with the reset signal up. -/
def twoInstances : Cluster := [sBusy 14 scenarioA .lookup, { resetC with port := { Port.idle with rst := true } }]
/-- Two instances at reset. -/
def twoAtReset : Cluster := [resetC, resetC]
theorem test_clusterReset : clusterReset Config.candidate 2 = .next twoAtReset := by
  simp only [clusterReset, boot, candidate_admitted, if_true, andThen]; rfl
theorem test_witness_InstancesDoNotInterfere : twoAtReset[1]? = some resetC ∧ ∀ x ∈ twoAtReset, x.port.rst = false := by
  refine ⟨rfl, fun x hx => ?_⟩
  rw [List.eq_of_mem_replicate (n := 2) hx]; rfl
theorem test_witness_InstancesDoNotInterfere_shares :
    clusterShares Config.candidate (loadTable Config.candidateLut) twoAtReset := by
  intro x hx
  rw [List.eq_of_mem_replicate (n := 2) hx]; exact ⟨rfl, rfl⟩
/-- The reset signal at one instance ends the DECODE of the other (R240; log entry 12). -/
theorem test_cluster_reset : (match clusterStep 1 twoInstances with
    | .next [a, _] => !a.busy && a.ready
    | .next _ => false
    | .fault _ => false
    | .refused _ => false) = true := by decide
theorem test_witness_InstancesResetTogether : ∃ x ∈ twoInstances, x.port.rst = true :=
  ⟨_, List.mem_cons_of_mem _ (List.mem_singleton.2 rfl), rfl⟩
theorem test_witness_OverlongInput : 65535 < (List.replicate 65536 (0 : Byte)).length := by
  rw [List.length_replicate]; decide
/-- A host that has raised the request of `sRequest`, and one that has not. -/
def benchAsking : Bench := { block := sRequest, waiting := true }
def benchIdle : Bench := { block := resetC, waiting := false }
theorem test_witness_Host_unsaturated : (14 : Len) ≠ satLen [0x34, 0x32].length := by decide
theorem test_witness_Host_waiting : benchAsking.waiting = true ∧ benchIdle.waiting = false ∧
    Port.idle.req ≠ benchAsking.block.port.req := by decide
/-- R210, R271: a host that holds its request may move the reset signal. -/
theorem test_hold_reset : hostDrive { sRequest.port with rst := true } benchAsking =
    .next { block := { sRequest with port := { sRequest.port with rst := true } }, waiting := true } := by rfl
/-- R271: one that lowers its request before ACCEPT is refused. -/
theorem test_hold_lowered : hostDrive Port.idle benchAsking = .refused .inputsNotHeld := by rfl
/-- R33, R271: after ACCEPT the host may change everything. -/
theorem test_hold_ends : (match benchStep benchAsking with
    | .next c => c.block.busy && !c.waiting
    | .fault _ => false
    | .refused _ => false) = true := by decide
theorem test_witness_Trusted : trustedMeasurement { State.reset with valid := true } = some Measurement.zero := by decide

end Sys2Proof.Tests
end

section
/-! The operation a DECODE in flight fetches, in terms of its captured bytes (spec/00_scope.md R2,
spec/42_mode_lut.md R140): the bytes that each stage presents decode to the next selector the frame fires. -/

namespace Sys2Proof.Machine

/-- The masked byte is the low seven bits of the byte (R104). -/
theorem maskByte_eq_extract (b : Byte) : maskByte b = b.extractLsb' 0 7 := by revert b; decide

/-- The unit index of a captured frame stands in the low three bits of its first byte (R124). -/
theorem extUnitIndex_eq_extract (f : Frame) : extUnitIndex (maskFrame f) = f[0].extractLsb' 0 3 := by
  have h : ∀ b : Byte, (maskByte b).extractLsb' 0 3 = b.extractLsb' 0 3 := by decide
  simp only [extUnitIndex, maskFrame_get]; exact h _

/-- The table row at the mode on the wires and the frame's unit index (R150). -/
def lookupInstr (s : State) : Instr := modeselOf s.wires.modeRes (s.capByte[0].extractLsb' 0 3)

/-- OVR_FREQ if `type[0]` is set, else the table row. -/
def freqInstr (s : State) : Instr :=
  if s.capByte[10].getLsbD 0 then .ovrFreq (s.capByte[10].extractLsb' 0 7) else lookupInstr s

/-- OVR_DUTY_EQ if `info` is `0b1000`, else what comes from the frequency override on. -/
def dutyEqInstr (s : State) : Instr :=
  if s.capByte[7].toNat % 16 = 8 then .ovrDutyEq (s.capByte[7].extractLsb' 0 7) else freqInstr s

/-- OVR_DUTY_BIT if `info[3]` is set, else what comes from the second duty term on. -/
def dutyBitInstr (s : State) : Instr :=
  if s.capByte[7].getLsbD 3 then .ovrDutyBit (s.capByte[7].extractLsb' 0 7) else dutyEqInstr s

theorem decodeAs_fetchLookup (s : State) :
    decodeAs (fetchLookup s).1 (fetchLookup s).2 = .instr (lookupInstr s) := by
  rw [lookupInstr, ← extUnitIndex_eq_extract]
  exact decodeModesel_byte _ _

/-- The bytes of an override that fires on a masked byte decode to it, each at its own offset and mask. -/
theorem decodeOvr_fired (b : RawByte) :
    (firesFreq b = true → decodeOvr (rawInByte b) 10 0x1 = .instr (.ovrFreq b)) ∧
    (firesDutyBit b = true → decodeOvr (rawInByte b) 7 0x8 = .instr (.ovrDutyBit b)) ∧
    (firesDutyEq b = true → decodeOvr (rawInByte b) 7 0xF = .instr (.ovrDutyEq b)) := by
  obtain ⟨hfreq, hbit, heq⟩ := decodeOvr_raw b
  exact ⟨fun h => by rw [hfreq, if_pos h], fun h => by rw [hbit, if_pos h], fun h => by rw [heq, if_pos h]⟩

/-- A masked byte of a captured frame is the low seven bits of that byte (R104). -/
theorem maskFrame_eq_extract (f : Frame) (i : Nat) (h : i < 14) :
    (maskFrame f)[i] = f[i].extractLsb' 0 7 := by
  rw [maskFrame_get f i h, maskByte_eq_extract]

theorem decodeAs_fetchFreq (s : State) :
    decodeAs (fetchFreq s).1 (fetchFreq s).2 = .instr (freqInstr s) := by
  have hfires := (fires_frame s.capByte).1
  unfold fetchFreq freqInstr
  rw [← hfires, ← maskFrame_eq_extract _ 10]
  split
  case isTrue h => exact (decodeOvr_fired _).1 h
  case isFalse => exact decodeAs_fetchLookup s

theorem decodeAs_fetchDutyEq (s : State) :
    decodeAs (fetchDutyEq s).1 (fetchDutyEq s).2 = .instr (dutyEqInstr s) := by
  have hfires : firesDutyEq (maskFrame s.capByte)[7] = true ↔ s.capByte[7].toNat % 16 = 8 := by
    rw [(fires_frame s.capByte).2.2, decide_eq_true_iff]
  unfold fetchDutyEq dutyEqInstr
  simp only [← hfires, ← maskFrame_eq_extract _ 7]
  split
  case isTrue h => exact (decodeOvr_fired _).2.2 h
  case isFalse => exact decodeAs_fetchFreq s

theorem decodeAs_fetchDutyBit (s : State) :
    decodeAs (fetchDutyBit s).1 (fetchDutyBit s).2 = .instr (dutyBitInstr s) := by
  have hfires := (fires_frame s.capByte).2.1
  unfold fetchDutyBit dutyBitInstr
  rw [← hfires, ← maskFrame_eq_extract _ 7]
  split
  case isTrue h => exact (decodeOvr_fired _).2.1 h
  case isFalse => exact decodeAs_fetchDutyEq s

/-- What is fetched is the decoding of the bytes presented. -/
theorem fetched_of_fetch {s : State} {b : Format × List Byte} {i : Instr} (hf : fetch s = some b)
    (hd : decodeAs b.1 b.2 = .instr i) : fetched s = some (.instr i) := by
  simp only [fetched, hf, Option.map_some, hd]

/-- With no step of LATENCY left the DECODE of the capture is fetched, at any stage (R263). -/
theorem fetched_countdown_zero {s : State} (hc : s.countdown = 0) :
    fetched s = some (.instr (.decode s.capLen s.capByte)) :=
  fetched_of_fetch (b := fetchComplete s) (by simp only [fetch, hc, if_true]) (decodeAs_frameBytes _ _)

/-- The selector fetched at a stage while LATENCY passes. -/
def stageInstr (s : State) : Stage → Option Instr
  | .ovrDutyBit => some (dutyBitInstr s)
  | .ovrDutyEq => some (dutyEqInstr s)
  | .ovrFreq => some (freqInstr s)
  | .lookup => some (lookupInstr s)
  | .complete => none

theorem fetched_countdown_pos {s : State} (hc : s.countdown ≠ 0) :
    fetched s = (stageInstr s s.stage).map .instr := by
  cases hs : s.stage with
  | ovrDutyBit => exact fetched_of_fetch (by simp only [fetch, hc, if_false, hs]) (decodeAs_fetchDutyBit s)
  | ovrDutyEq => exact fetched_of_fetch (by simp only [fetch, hc, if_false, hs]) (decodeAs_fetchDutyEq s)
  | ovrFreq => exact fetched_of_fetch (by simp only [fetch, hc, if_false, hs]) (decodeAs_fetchFreq s)
  | lookup => exact fetched_of_fetch (by simp only [fetch, hc, if_false, hs]) (decodeAs_fetchLookup s)
  | complete => simp only [fetched, fetch, hc, if_false, hs, Option.map_none, stageInstr]

/-- Settles O41: a case per stage of what the bytes presented there decode to. -/
theorem pipelineFetchesTheFramesOwnOperations : Obligations.PipelineFetchesTheFramesOwnOperations := by
  unfold Obligations.PipelineFetchesTheFramesOwnOperations
  intro s
  refine ⟨fetched_countdown_zero, fun hc => ?_⟩
  have h := fetched_countdown_pos hc
  refine ⟨?_, ?_, ?_, ?_, ?_⟩ <;> (intro hs; rw [hs] at h; exact h)

end Sys2Proof.Machine
end

section
/-! What one step of the block can do (spec/70_reset_and_hazards.md R260 to R263), said once: RESET, COMPLETE, a
step of LATENCY, ACCEPT, or nothing. -/

namespace Sys2Proof.Machine

/-- The five moves of a step, each with its guard. -/
inductive StepCase (s : State) : State → Prop
  | reset (hrst : s.port.rst = true) : StepCase s (resetOp s)
  | complete (hrst : s.port.rst = false) (hbusy : s.busy = true) (hcount : s.countdown = 0) :
      StepCase s (completeOp s.capLen s.capByte s)
  | selector (hrst : s.port.rst = false) (hbusy : s.busy = true) (hcount : s.countdown ≠ 0) :
      StepCase s (advanceSelector s)
  | accept (hrst : s.port.rst = false) (hready : s.ready = true) (hbusy : s.busy = false)
      (hreq : s.port.req = true) : StepCase s (acceptOp s.port.inLen s.port.inByte s)
  | idle (hrst : s.port.rst = false) (hbusy : s.busy = false) (henabled : acceptEnabled s = false) :
      StepCase s s

theorem step_of_rst {s : State} (hrst : s.port.rst = true) : step s = .next (resetOp s) := by
  rw [step, if_pos hrst]

theorem step_of_accept {s : State} (hrst : s.port.rst = false) (hready : s.ready = true)
    (hbusy : s.busy = false) (hreq : s.port.req = true) :
    step s = .next (acceptOp s.port.inLen s.port.inByte s) := by
  simp [step, acceptEnabled, hrst, hready, hbusy, hreq]

theorem step_of_not_enabled {s : State} (hrst : s.port.rst = false) (hbusy : s.busy = false)
    (henabled : acceptEnabled s = false) : step s = .next s := by
  simp [step, hrst, hbusy, henabled]

/-- COMPLETE as soon as no step of LATENCY is left (R263). -/
theorem step_of_countdown_zero {s : State} (hrst : s.port.rst = false) (hbusy : s.busy = true)
    (hcount : s.countdown = 0) : step s = .next (completeOp s.capLen s.capByte s) := by
  rw [step_advances hrst hbusy, advance, if_pos hcount]

theorem step_of_countdown_pos {s : State} (hrst : s.port.rst = false) (hbusy : s.busy = true)
    (hcount : s.countdown ≠ 0) : step s = .next (advanceSelector s) := by
  rw [step_advances hrst hbusy, advance, if_neg hcount]

/-- Every state has one of the five moves, and the step answers it. -/
theorem exists_stepCase (s : State) : ∃ t, step s = .next t ∧ StepCase s t := by
  cases hrst : s.port.rst with
  | true => exact ⟨_, step_of_rst hrst, .reset hrst⟩
  | false =>
    cases hbusy : s.busy with
    | true =>
      by_cases hcount : s.countdown = 0
      · exact ⟨_, step_of_countdown_zero hrst hbusy hcount, .complete hrst hbusy hcount⟩
      · exact ⟨_, step_of_countdown_pos hrst hbusy hcount, .selector hrst hbusy hcount⟩
    | false =>
      cases henabled : acceptEnabled s with
      | true =>
        have hguard := henabled
        simp only [acceptEnabled, Bool.and_eq_true] at hguard
        obtain ⟨⟨hready, -⟩, hreq⟩ := hguard
        exact ⟨_, step_of_accept hrst hready hbusy hreq, .accept hrst hready hbusy hreq⟩
      | false => exact ⟨_, step_of_not_enabled hrst hbusy henabled, .idle hrst hbusy henabled⟩

/-- What a step answers is one of the five moves. -/
theorem stepCase_of_step {s t : State} (h : step s = .next t) : StepCase s t := by
  obtain ⟨u, hu, hcase⟩ := exists_stepCase s
  rw [h] at hu
  cases hu
  exact hcase

/-- What an instruction does: DECODE completes, and a selector is a lookup, the frequency override or a duty
term (R88). -/
theorem exec_cases (i : Instr) (s : State) :
    (∃ len f, i = .decode len f ∧ exec i s = .next (completeOp len f s)) ∨
    (∃ c u, exec i s = .next (lookupOp c u s)) ∨
    (∃ fires, exec i s = .next (freqOverrideOp fires s)) ∨
    ∃ fires next, exec i s = .next (dutyTermOp fires next s) := by
  cases i with
  | decode len f => exact .inl ⟨len, f, rfl, rfl⟩
  | modeselCurrentA u => exact .inr (.inl ⟨0x0, u, rfl⟩)
  | modeselDiode u => exact .inr (.inl ⟨0x1, u, rfl⟩)
  | modeselFrequency u => exact .inr (.inl ⟨0x2, u, rfl⟩)
  | modeselResistance u => exact .inr (.inl ⟨0x3, u, rfl⟩)
  | modeselInvalid4 u => exact .inr (.inl ⟨0x4, u, rfl⟩)
  | modeselContinuity u => exact .inr (.inl ⟨0x5, u, rfl⟩)
  | modeselCapacitance u => exact .inr (.inl ⟨0x6, u, rfl⟩)
  | modeselInvalid7 u => exact .inr (.inl ⟨0x7, u, rfl⟩)
  | modeselDuty u => exact .inr (.inl ⟨0x8, u, rfl⟩)
  | modeselInvalid9 u => exact .inr (.inl ⟨0x9, u, rfl⟩)
  | modeselInvalidA u => exact .inr (.inl ⟨0xA, u, rfl⟩)
  | modeselVoltage u => exact .inr (.inl ⟨0xB, u, rfl⟩)
  | modeselInvalidC u => exact .inr (.inl ⟨0xC, u, rfl⟩)
  | modeselCurrentUa u => exact .inr (.inl ⟨0xD, u, rfl⟩)
  | modeselInvalidE u => exact .inr (.inl ⟨0xE, u, rfl⟩)
  | modeselCurrentMa u => exact .inr (.inl ⟨0xF, u, rfl⟩)
  | ovrFreq b => exact .inr (.inr (.inl ⟨firesFreq b, rfl⟩))
  | ovrDutyBit b => exact .inr (.inr (.inr ⟨firesDutyBit b, .ovrDutyEq, rfl⟩))
  | ovrDutyEq b => exact .inr (.inr (.inr ⟨firesDutyEq b, .ovrFreq, rfl⟩))

end Sys2Proof.Machine
end

section
/-! The invariant of the block (spec/10_state.md R34, R35; spec/42_mode_lut.md R140, R150): the selectors keep the
wires in agreement with the captured frame, and every move of a step keeps the whole. -/

namespace Sys2Proof.Machine

/-- Which override rows a raw frame fires, in terms of its fields (R88, R140, R142). -/
theorem fires_rawFrame (r : RawFrame) : firesFreq r[10] = flagFreq r ∧
    firesDutyBit r[7] = (extInfo r).getLsbD 3 ∧ firesDutyEq r[7] = (extInfo r == 0b1000) := by
  have h : ∀ b : RawByte, firesFreq b = (b.extractLsb' 0 4).getLsbD 0 ∧
      firesDutyBit b = (b.extractLsb' 0 4).getLsbD 3 ∧ firesDutyEq b = (b.extractLsb' 0 4 == 0b1000) := by
    decide
  exact ⟨(h r[10]).1, (h r[7]).2⟩

/-- The second term of the duty condition adds nothing to the first (R144). -/
theorem dutyCond_eq_bit (info : Nibble) : dutyCond info = info.getLsbD 3 := by revert info; decide

/-- The resolved mode is the frequency override on what the duty terms leave (R143). -/
theorem resolvedMode_eq (p : Params) (r : RawFrame) : resolvedMode p r =
    if flagFreq r then p.modeCode .frequency else modeAfterDuty p (dutyCond (extInfo r)) r := by
  unfold resolvedMode modeRes modeAfterDuty flagFreq
  cases (extType r).getLsbD 0 <;> simp

/-- The wires show the duty condition `d` and the mode that goes with it before the frequency override. -/
def dutyOnWires (s : State) (d : Bool) : Prop :=
  s.wires.dutyCond = d ∧ s.wires.modeRes = modeAfterDuty s.params d (maskFrame s.capByte)

/-- A duty term that fires sets the condition, whatever it was before. -/
theorem dutyOnWires_dutyTermOp {s : State} {d d' : Bool} (next : Stage) (h : dutyOnWires s d)
    (hset : d' = true) : dutyOnWires (dutyTermOp true next (tickOp s)) d' := by
  obtain ⟨-, hmode⟩ := h
  subst hset
  refine ⟨rfl, ?_⟩
  simp only [dutyTermOp_wires, tickOp_wires, hmode, modeAfterDuty]
  cases hf : flagFreq (maskFrame s.capByte) <;> simp [hf]

theorem advanceLookup_wiresAgree {s : State}
    (hduty : s.wires.dutyCond = dutyCond (extInfo (maskFrame s.capByte)))
    (hmode : s.wires.modeRes = resolvedMode s.params (maskFrame s.capByte)) (hlen : lenOk s.capLen = true) :
    wiresAgree (advanceLookup s (tickOp s)) := by
  intro _
  simp [advanceLookup, hlen, hduty, hmode, frameWord]

theorem advanceFreq_wiresAgree {s : State} (h : dutyOnWires s (dutyCond (extInfo (maskFrame s.capByte))))
    (hlen : lenOk s.capLen = true) : wiresAgree (advanceFreq s (tickOp s)) := by
  obtain ⟨hduty, hmode⟩ := h
  have hres := resolvedMode_eq s.params (maskFrame s.capByte)
  rw [advanceFreq, (fires_rawFrame _).1]
  split
  case isTrue hfreq =>
    rw [if_pos hfreq] at hres
    intro _
    simp [hlen, hduty, hres]
  case isFalse hfreq =>
    rw [if_neg hfreq] at hres
    exact advanceLookup_wiresAgree hduty (hmode.trans hres.symm) hlen

theorem advanceDutyEq_wiresAgree {s : State}
    (h : dutyOnWires s ((extInfo (maskFrame s.capByte)).getLsbD 3)) (hlen : lenOk s.capLen = true) :
    wiresAgree (advanceDutyEq s (tickOp s)) := by
  rw [advanceDutyEq, (fires_rawFrame _).2.2]
  split
  case isTrue heq =>
    have hcond : dutyCond (extInfo (maskFrame s.capByte)) = true := by rw [dutyCond, heq, Bool.or_true]
    intro _
    exact (if_pos hlen).mpr (dutyOnWires_dutyTermOp .ovrFreq h hcond)
  case isFalse =>
    rw [← dutyCond_eq_bit] at h
    exact advanceFreq_wiresAgree h hlen

theorem advanceDutyBit_wiresAgree {s : State} (h : dutyOnWires s false) (hlen : lenOk s.capLen = true) :
    wiresAgree (advanceDutyBit s (tickOp s)) := by
  rw [advanceDutyBit, (fires_rawFrame _).2.1]
  split
  case isTrue hbit =>
    intro _
    exact (if_pos hlen).mpr (dutyOnWires_dutyTermOp .ovrDutyEq h hbit)
  case isFalse hbit =>
    rw [← Bool.eq_false_iff.2 hbit] at h
    exact advanceDutyEq_wiresAgree h hlen

/-- While LATENCY passes, the selectors keep the wires in agreement with the frame. -/
theorem advanceSelector_wiresAgree {s : State} (hbusy : s.busy = true) (h : wiresAgree s) :
    wiresAgree (advanceSelector s) := by
  have hs := h hbusy
  cases hlen : lenOk s.capLen with
  | false =>
    have hstage : s.stage = .complete := by simpa [hlen] using hs
    rw [advanceSelector, hstage]
    exact h
  | true =>
    rw [if_pos hlen] at hs
    rw [advanceSelector]
    cases hstage : s.stage with
    | ovrDutyBit => rw [hstage] at hs; exact advanceDutyBit_wiresAgree hs hlen
    | ovrDutyEq => rw [hstage] at hs; exact advanceDutyEq_wiresAgree hs hlen
    | ovrFreq => rw [hstage] at hs; exact advanceFreq_wiresAgree hs hlen
    | lookup => rw [hstage] at hs; exact advanceLookup_wiresAgree hs.1 hs.2 hlen
    | complete => exact h

/-- ACCEPT starts the wires at the base mode of the frame it captures (R105, R140). -/
theorem acceptOp_wiresAgree (len : Len) (f : Frame) (s : State) : wiresAgree (acceptOp len f s) := by
  intro _
  cases hlen : lenOk len <;> simp [hlen, Wires.zero]

theorem wiresAgree_of_not_busy {s : State} (h : s.busy = false) : wiresAgree s :=
  fun hbusy => absurd hbusy (by simp [h])

theorem busyValidExclusive_of_not_busy {s : State} (h : s.busy = false) : busyValidExclusive s :=
  fun ⟨hbusy, _⟩ => absurd hbusy (by simp [h])

theorem busyValidExclusive_of_not_valid {s : State} (h : s.valid = false) : busyValidExclusive s :=
  fun ⟨_, hvalid⟩ => absurd hvalid (by simp [h])

theorem resultIsDecode_of_not_valid {s : State} (h : s.valid = false) : resultIsDecode s :=
  fun hvalid => absurd hvalid (by simp [h])

theorem resetOp_inv (s : State) : Inv (resetOp s) :=
  ⟨loadTable_wf _, busyValidExclusive_of_not_busy rfl, resultIsDecode_of_not_valid rfl,
    wiresAgree_of_not_busy rfl⟩

theorem resetWith_inv (p : Params) : Inv (State.resetWith p) :=
  ⟨loadTable_wf _, busyValidExclusive_of_not_busy rfl, resultIsDecode_of_not_valid rfl,
    wiresAgree_of_not_busy rfl⟩

/-- COMPLETE of the capture makes RES its decode (R35, R263). -/
theorem completeOp_inv {s : State} (hwf : Memory.wf s.table = true) :
    Inv (completeOp s.capLen s.capByte s) :=
  ⟨hwf, busyValidExclusive_of_not_busy rfl, fun _ => rfl, wiresAgree_of_not_busy rfl⟩

theorem acceptOp_inv {s : State} (len : Len) (f : Frame) (hwf : Memory.wf s.table = true) :
    Inv (acceptOp len f s) :=
  ⟨hwf, busyValidExclusive_of_not_valid rfl, resultIsDecode_of_not_valid rfl, acceptOp_wiresAgree len f s⟩

/-- The selectors of a DECODE in flight, whose RES is not valid, keep the invariant. -/
theorem advanceSelector_inv {s : State} (hbusy : s.busy = true) (h : Inv s) : Inv (advanceSelector s) := by
  obtain ⟨hwf, hexcl, -, hwires⟩ := h
  obtain ⟨-, htable, -, -, hvalid, -⟩ := advanceSelector_keeps s
  have hnot : (advanceSelector s).valid = false :=
    hvalid.trans (Bool.eq_false_iff.2 fun hv => hexcl ⟨hbusy, hv⟩)
  exact ⟨htable ▸ hwf, busyValidExclusive_of_not_valid hnot, resultIsDecode_of_not_valid hnot,
    advanceSelector_wiresAgree hbusy hwires⟩

/-- Settles O47: each of the five moves of a step keeps the invariant. -/
theorem everyStepKeepsTheInvariant : Obligations.EveryStepKeepsTheInvariant := by
  unfold Obligations.EveryStepKeepsTheInvariant
  intro s t hinv hstep
  cases stepCase_of_step hstep with
  | reset => exact resetOp_inv s
  | complete => exact completeOp_inv hinv.1
  | selector _ hbusy => exact advanceSelector_inv hbusy hinv
  | accept => exact acceptOp_inv _ _ hinv.1
  | idle => exact hinv

/-- Settles O48. -/
theorem invariantHoldsAtReset : Obligations.InvariantHoldsAtReset := resetWith_inv Config.params

end Sys2Proof.Machine
end

section
/-! What is written when: RES, the table and the build along a step, and the frame of the selector rows
(spec/10_state.md R24, R32; spec/20_memory.md R55, R56, R58). -/

namespace Sys2Proof.Machine

/-- Settles O44: of the five moves only RESET and COMPLETE write RES. -/
theorem resultIsWrittenOnlyByCompletionOrReset : Obligations.ResultIsWrittenOnlyByCompletionOrReset := by
  unfold Obligations.ResultIsWrittenOnlyByCompletionOrReset
  intro s t hstep hne
  cases stepCase_of_step hstep with
  | reset hrst => exact .inl ⟨hrst, rfl⟩
  | complete hrst hbusy => exact .inr ⟨hrst, hbusy, rfl, rfl, rfl⟩
  | selector =>
    obtain ⟨-, -, -, -, -, hres, -⟩ := advanceSelector_keeps s
    exact absurd hres hne
  | accept => exact absurd (acceptOp_res _ _ s) hne
  | idle => exact absurd rfl hne

/-- A step leaves the pins and the build; the table is kept, or loaded anew by RESET. -/
theorem step_port_params_table {s t : State} (hstep : step s = .next t) :
    t.port = s.port ∧ t.params = s.params ∧
      t.table = if s.port.rst then loadTable s.params.lutInit else s.table := by
  cases stepCase_of_step hstep with
  | reset hrst => simp [hrst]
  | complete hrst => simp [hrst]
  | selector hrst =>
    obtain ⟨hparams, htable, -, -, -, -, -, -, hport, -⟩ := advanceSelector_keeps s
    simp [hrst, hparams, htable, hport]
  | accept hrst => simp [hrst]
  | idle hrst => simp [hrst]

/-- Settles O45. -/
theorem tableIsWrittenOnlyByReset : Obligations.TableIsWrittenOnlyByReset := by
  unfold Obligations.TableIsWrittenOnlyByReset
  intro s t hstep
  obtain ⟨hport, hparams, htable⟩ := step_port_params_table hstep
  refine ⟨hport, hparams, fun hrst => by simp [htable, hrst], fun hrst => by simp [htable, hrst],
    fun hlut => ?_, fun hadm => ?_⟩
  · rw [tableIsLutInit] at hlut ⊢
    rw [htable, hparams, hlut, ite_self]
  · rw [builtAdmitted, hparams]; exact hadm

/-- Settles O46. -/
theorem tableIsLutInitAtReset : Obligations.TableIsLutInitAtReset := ⟨rfl, params_admitted⟩

/-- Settles O22. -/
theorem loadedTableReadsAsLutInit : Obligations.LoadedTableReadsAsLutInit := by
  unfold Obligations.LoadedTableReadsAsLutInit
  intro p a
  have haddr : (BitVec.ofNat 7 a.val).toNat = a.val := by
    rw [BitVec.toNat_ofNat, Nat.mod_eq_of_lt a.isLt]
  rw [resetWith_table, lutRead, haddr]
  exact loadTable_read p.lutInit a.val a.isLt

/-- Settles O18: a selector row is a lookup, the frequency override or a duty term. -/
theorem selectorsChangeOnlyWiresAndStage : Obligations.SelectorsChangeOnlyWiresAndStage := by
  unfold Obligations.SelectorsChangeOnlyWiresAndStage
  intro s t u b i hmem hexec
  rcases exec_cases i s with ⟨len, f, rfl, -⟩ | ⟨c, v, h⟩ | ⟨fires, h⟩ | ⟨fires, next, h⟩
  · simp at hmem
  all_goals
    rw [h] at hexec
    cases hexec
    simp

end Sys2Proof.Machine
end

section
/-! The DECODE transaction on a ready block: what was in flight completes, the request is accepted and completes
(spec/10_state.md R35; spec/70_reset_and_hazards.md R263, R264). -/

namespace Sys2Proof.Machine

/-- `t` is a block that has completed the DECODE in flight at `s`. -/
structure CompletesTo (s t : State) : Prop where
  busy : t.busy = false
  valid : t.valid = true
  res : t.res = decodeFrame s.params s.capLen s.capByte s.table
  params : t.params = s.params
  table : t.table = s.table
  ready : t.ready = s.ready
  port : t.port = s.port

theorem completeOp_completesTo (s : State) : CompletesTo s (completeOp s.capLen s.capByte s) where
  busy := rfl
  valid := rfl
  res := rfl
  params := rfl
  table := rfl
  ready := rfl
  port := rfl

/-- What completes after a selector's step completes from before it. -/
theorem CompletesTo.of_advanceSelector {s t : State} (h : CompletesTo (advanceSelector s) t) :
    CompletesTo s t := by
  obtain ⟨hparams, htable, hready, -, -, -, hlen, hbyte, hport, -⟩ := advanceSelector_keeps s
  exact
    { busy := h.busy
      valid := h.valid
      res := by rw [h.res, hparams, htable, hlen, hbyte]
      params := h.params.trans hparams
      table := h.table.trans htable
      ready := h.ready.trans hready
      port := h.port.trans hport }

@[simp] theorem andThen_next {σ τ : Type} (s : σ) (k : σ → Host.Outcome τ Fault Refusal) :
    andThen (.next s) k = k s := rfl

theorem runBusy_of_not_busy (n : Nat) {s : State} (h : s.busy = false) : runBusy n s = .next s := by
  cases n <;> simp [runBusy, h]

theorem runBusy_succ_of_step {n : Nat} {s t : State} (hbusy : s.busy = true) (h : step s = .next t) :
    runBusy (n + 1) s = runBusy n t := by
  simp [runBusy, hbusy, h]

/-- A DECODE in flight completes in the steps left of LATENCY and one more (R263). -/
theorem runBusy_completes (n : Nat) : ∀ {s : State}, s.port.rst = false → s.busy = true → s.countdown = n →
    ∃ t, runBusy (n + 1) s = .next t ∧ CompletesTo s t := by
  induction n with
  | zero =>
    intro s hrst hbusy hcount
    rw [runBusy_succ_of_step hbusy (step_of_countdown_zero hrst hbusy hcount)]
    exact ⟨_, runBusy_of_not_busy 0 rfl, completeOp_completesTo s⟩
  | succ n ih =>
    intro s hrst hbusy hcount
    obtain ⟨-, -, -, hbusy', -, -, -, -, hport', hcount'⟩ := advanceSelector_keeps s
    rw [runBusy_succ_of_step hbusy (step_of_countdown_pos hrst hbusy (by omega))]
    obtain ⟨t, ht, hcomp⟩ := ih (s := advanceSelector s) (by rw [hport', hrst]) (hbusy'.trans hbusy) (by omega)
    exact ⟨t, ht, hcomp.of_advanceSelector⟩

theorem finish_completes {s : State} (hrst : s.port.rst = false) (hbusy : s.busy = true) :
    ∃ t, finish s = .next t ∧ CompletesTo s t :=
  runBusy_completes s.countdown hrst hbusy rfl

/-- Waiting ends in an idle block with the same build, table, `ready` and pins, in flight or not. -/
theorem finish_idles {s : State} (hrst : s.port.rst = false) : ∃ t, finish s = .next t ∧ t.busy = false ∧
    t.params = s.params ∧ t.table = s.table ∧ t.ready = s.ready ∧ t.port = s.port := by
  cases hbusy : s.busy with
  | true =>
    obtain ⟨t, ht, hcomp⟩ := finish_completes hrst hbusy
    exact ⟨t, ht, hcomp.busy, hcomp.params, hcomp.table, hcomp.ready, hcomp.port⟩
  | false => exact ⟨s, runBusy_of_not_busy _ hbusy, hbusy, rfl, rfl, rfl, rfl⟩

/-- The DECODE transaction on a ready block observes the decode of its own operands, and leaves the block
ready and idle with its build and its table (R61, R264). -/
theorem transact_decode {s : State} (len : Len) (f : Frame) (hready : s.ready = true) :
    ∃ t, transact (.decode len f) s = .next (t, [decodeFrame s.params len f s.table]) ∧
      t.ready = true ∧ t.busy = false ∧ t.params = s.params ∧ t.table = s.table := by
  obtain ⟨s₁, hfin₁, hbusy₁, hparams₁, htable₁, hready₁, hport₁⟩ :=
    finish_idles (s := { s with port := requestPort len f }) rfl
  have hstep : step s₁ = .next (acceptOp len f s₁) := by
    have h := step_of_accept (by rw [hport₁]; rfl) (hready₁.trans hready) hbusy₁ (by rw [hport₁]; rfl)
    rw [hport₁] at h
    exact h
  obtain ⟨t, hfin₂, hcomp⟩ :=
    finish_completes (s := { acceptOp len f s₁ with port := Port.idle }) rfl rfl
  have hres : t.res = decodeFrame s.params len f s.table := by
    simp only [hcomp.res, acceptOp_params, acceptOp_table, acceptOp_capLen, acceptOp_capByte, hparams₁, htable₁]
  refine ⟨t, ?_, hcomp.ready.trans (hready₁.trans hready), hcomp.busy, hcomp.params.trans hparams₁,
    hcomp.table.trans htable₁⟩
  rw [transact, hfin₁, andThen_next, if_pos (hready₁.trans hready), hstep, andThen_next, hfin₂, andThen_next,
    hres]

/-- Settles O52: both observe the decode of the request under the build and the table they share. -/
theorem noStateLeaksBetweenDecodes : Obligations.NoStateLeaksBetweenDecodes := by
  unfold Obligations.NoStateLeaksBetweenDecodes
  intro s s' len f hparams htable hready hready'
  obtain ⟨t, ht, -⟩ := transact_decode len f hready
  obtain ⟨t', ht', -⟩ := transact_decode len f hready'
  rw [← hparams, ← htable] at ht'
  exact ⟨t, t', _, ht, ht'⟩

end Sys2Proof.Machine
end

section
/-! The host's request (spec/48_host_interface.md R212): the saturated length and the padded bytes. -/

namespace Sys2Proof.Machine

theorem satLen_toNat (n : Nat) : (satLen n).toNat = min n 65535 := by
  unfold satLen
  split
  case isTrue h => rw [BitVec.toNat_ofNat, Nat.mod_eq_of_lt (by omega), Nat.min_eq_left h]
  case isFalse h => rw [Nat.min_eq_right (by omega)]; rfl

theorem padFrame_get (received : List Byte) (i : Fin 14) :
    (padFrame received)[i] = (received[i.val]?).getD 0 := by
  simp [padFrame]

/-- A host with no request waiting may move every pin (R210, R271). -/
theorem hostDrive_of_not_waiting {b : Bench} (p : Port) (h : b.waiting = false) :
    hostDrive p b =
      .next { block := { b.block with port := p }, waiting := p.req && !b.block.port.req } := by
  simp [hostDrive, h]

/-- Settles O57. -/
theorem hostPresentsSaturatedHeldRequests : Obligations.HostPresentsSaturatedHeldRequests := by
  unfold Obligations.HostPresentsSaturatedHeldRequests
  refine ⟨fun b received hwait => ?_, fun b received len hlen => by rw [hostRequest, if_neg hlen]⟩
  rw [hostRequest, if_pos rfl, hostDrive_of_not_waiting _ hwait]
  exact ⟨_, rfl, rfl, rfl, satLen_toNat _, padFrame_get received, rfl, rfl⟩

end Sys2Proof.Machine
end

section
/-! The packed words (spec/10_state.md R28) field by field, and the status of a DECODE with what it records
(spec/60_exceptions.md R230). A field is found by taking the appended parts off the word one by one; the last
append is named with its two widths, since the word's type holds only their sum. -/

namespace Sys2Proof.Machine

theorem lenOk_iff (len : Len) : lenOk len = true ↔ len.toNat = 14 := by
  rw [lenOk, beq_iff_eq, ← BitVec.toNat_inj]; rfl

/-- Bit `i` of the parity vector is the verdict on byte `i` (R102). -/
theorem parVec_get (f : Frame) (i : Fin 14) : (parVec f).getLsbD i = parOk f[i] := by
  fin_cases i <;> 
    simp [parVec, BitVec.getLsbD_append (n := 13) (m := 1), BitVec.getLsbD_append,
      -BitVec.getLsbD_eq_getElem, -Nat.reduceAdd]

/-- The parity check passes exactly if every byte does (R102). -/
theorem parAll_iff (f : Frame) : parAll f = true ↔ ∀ i : Fin 14, parOk f[i] = true := by
  have hones : ∀ i : Fin 14, (0x3FFF#14).getLsbD i = true := by decide
  rw [parAll, beq_iff_eq]
  constructor
  · intro h i
    rw [← parVec_get, h]; exact hones i
  · intro h
    refine BitVec.eq_of_getLsbD_eq fun i hi => ?_
    exact (parVec_get f ⟨i, hi⟩).trans ((h ⟨i, hi⟩).trans (hones ⟨i, hi⟩).symm)

/-- The status of a DECODE by its cause, in the order of R233. -/
theorem decodeStatus_eq (p : Params) (len : Len) (f : Frame) (t : Memory) : decodeStatus p len f t =
    if len.toNat ≠ 14 then .invalidLength
    else if ∃ i : Fin 14, parOk f[i] = false then .parityMismatch
    else if lutPresent (frameWord p (maskFrame f) t) = false then .unknownModeOrUnit
    else .ok := by
  have hlen := lenOk_iff len
  have hpar : (∃ i : Fin 14, parOk f[i] = false) ↔ parAll f = false := by
    rw [← Bool.not_eq_true, parAll_iff]; simp
  simp only [decodeStatus, raiseStatus, ne_eq, ← hlen, hpar, Bool.not_eq_true, Bool.not_eq_true']

theorem statusCode_eq_iff (a b : Status) : statusCode a = statusCode b ↔ a = b := by
  cases a <;> cases b <;> decide

theorem decodeFrame_ok {p : Params} {len : Len} {f : Frame} {t : Memory}
    (h : decodeStatus p len f t = .ok) :
    (decodeFrame p len f t).meas = measurementOf p f t ∧ (decodeFrame p len f t).diag = diagnosticOf p f t := by
  simp only [decodeFrame, h]; exact ⟨rfl, rfl⟩

theorem decodeFrame_invalidLength {p : Params} {len : Len} {f : Frame} {t : Memory}
    (h : decodeStatus p len f t = .invalidLength) :
    (decodeFrame p len f t).meas = Measurement.zero ∧ (decodeFrame p len f t).diag = Diagnostic.zero := by
  simp only [decodeFrame, h]; exact ⟨rfl, rfl⟩

theorem decodeFrame_parityMismatch {p : Params} {len : Len} {f : Frame} {t : Memory}
    (h : decodeStatus p len f t = .parityMismatch) :
    (decodeFrame p len f t).meas = Measurement.zero ∧ (decodeFrame p len f t).diag = diagnosticOf p f t := by
  simp only [decodeFrame, h]; exact ⟨rfl, rfl⟩

/-- An unknown mode or unit is recorded with a table miss (R151). -/
theorem decodeFrame_unknownModeOrUnit {p : Params} {len : Len} {f : Frame} {t : Memory}
    (h : decodeStatus p len f t = .unknownModeOrUnit) :
    (decodeFrame p len f t).meas = Measurement.zero ∧ (decodeFrame p len f t).diag = diagnosticOf p f t ∧
      (decodeFrame p len f t).diag.lutHit = false := by
  have hmiss : lutPresent (frameWord p (maskFrame f) t) = false := by
    rw [decodeStatus_eq] at h
    split_ifs at h with _ _ hmiss
    exact hmiss
  simp only [decodeFrame, h]
  exact ⟨rfl, rfl, hmiss⟩

/-- STATUSW (R28). -/
theorem statusWord_fields (s : State) : (statusWord s).getLsbD 0 = s.valid ∧
    (statusWord s).extractLsb' 1 2 = statusCode s.res.status ∧ (statusWord s).getLsbD 3 = s.ready ∧
    (statusWord s).getLsbD 4 = s.busy ∧ (statusWord s).extractLsb' 5 3 = 0 := by
  simp [statusWord, BitVec.extractLsb'_append_eq_of_le (v := 7) (w := 1),
    BitVec.getLsbD_append (n := 7) (m := 1), BitVec.extractLsb'_append_eq_of_le,
    BitVec.extractLsb'_append_eq_of_add_le, BitVec.getLsbD_append, -BitVec.getLsbD_eq_getElem,
    -Nat.reduceAdd]

/-- MEASW (R28). -/
theorem measWord_fields (m : Measurement) : (measWord m).extractLsb' 0 4 = m.mode ∧
    (measWord m).extractLsb' 4 4 = m.unitId ∧
    (measWord m).extractLsb' 8 16 = m.scale ∧ (measWord m).extractLsb' 24 18 = m.magnitude ∧
    (measWord m).getLsbD 42 = m.negative ∧ (measWord m).getLsbD 43 = m.overload ∧
    (measWord m).getLsbD 44 = m.underload ∧ (measWord m).getLsbD 45 = m.freq ∧
    (measWord m).getLsbD 46 = m.duty ∧ (measWord m).getLsbD 47 = m.dc ∧ (measWord m).getLsbD 48 = m.ac ∧
    (measWord m).extractLsb' 49 15 = 0 := by
  simp [measWord, BitVec.extractLsb'_append_eq_of_le (v := 60) (w := 4),
    BitVec.extractLsb'_append_eq_of_add_le (v := 60) (w := 4),
    BitVec.getLsbD_append (n := 60) (m := 4), BitVec.extractLsb'_append_eq_of_le,
    BitVec.extractLsb'_append_eq_of_add_le, BitVec.getLsbD_append, -BitVec.getLsbD_eq_getElem,
    -Nat.reduceAdd]

/-- The five digits of DIAGW (R28). -/
theorem diagWord_digit (d : Diagnostic) (k : Fin 5) :
    (diagWord d).extractLsb' (16 + 4 * k.val) 4 = d.digit[k] := by
  fin_cases k <;>
    simp [diagWord, BitVec.extractLsb'_append_eq_of_le (v := 61) (w := 3),
      BitVec.extractLsb'_append_eq_of_le, BitVec.extractLsb'_append_eq_of_add_le, -Nat.reduceAdd]

/-- DIAGW but for its digits (R28). -/
theorem diagWord_fields (d : Diagnostic) : (diagWord d).extractLsb' 0 3 = d.unitIndex ∧
    (diagWord d).extractLsb' 3 4 = d.modeBase ∧
    (diagWord d).extractLsb' 7 4 = d.typ ∧ (diagWord d).extractLsb' 11 4 = d.info ∧
    (diagWord d).getLsbD 15 = d.underload ∧
    (diagWord d).extractLsb' 36 4 = d.modeRes ∧ (diagWord d).getLsbD 40 = d.dutyCond ∧
    (diagWord d).getLsbD 41 = d.lutHit ∧ (diagWord d).extractLsb' 42 14 = d.parOk ∧
    (diagWord d).extractLsb' 56 8 = 0 := by
  simp [diagWord, BitVec.extractLsb'_append_eq_of_le (v := 61) (w := 3),
    BitVec.extractLsb'_append_eq_of_add_le (v := 61) (w := 3),
    BitVec.getLsbD_append (n := 61) (m := 3), BitVec.extractLsb'_append_eq_of_le,
    BitVec.extractLsb'_append_eq_of_add_le, BitVec.getLsbD_append, -BitVec.getLsbD_eq_getElem,
    -Nat.reduceAdd]

/-- RAWW (R28). -/
theorem rawWord_fields (d : Diagnostic) (i : Fin 14) :
    (rawWord d i).extractLsb' 0 7 = d.raw[i] ∧ (rawWord d i).getLsbD 7 = false := by
  simp [rawWord, BitVec.extractLsb'_append_eq_of_add_le (v := 1) (w := 7),
    BitVec.getLsbD_append (n := 1) (m := 7), -BitVec.getLsbD_eq_getElem, -Nat.reduceAdd]

/-- The code of a DECODE by its cause (R230). -/
theorem statusCode_decodeStatus (p : Params) (len : Len) (f : Frame) (t : Memory) :
    statusCode (decodeStatus p len f t) =
      if len.toNat ≠ 14 then 1
      else if ∃ i : Fin 14, parOk f[i] = false then 2
      else if lutPresent (frameWord p (maskFrame f) t) = false then 3
      else 0 := by
  rw [decodeStatus_eq]
  simp only [apply_ite statusCode]; rfl

/-- Settles O36: the words by their layout, the codes by the status of `decodeFrame` and its gates. -/
theorem packedWordsHoldTheFields : Obligations.PackedWordsHoldTheFields := by
  unfold Obligations.PackedWordsHoldTheFields
  refine ⟨statusWord_fields, ⟨rfl, rfl, rfl, rfl⟩, fun s len f => ⟨_, rfl, ?_⟩, measWord_fields, fun d => ?_,
    rawWord_fields⟩
  · have hcode := (statusWord_fields (completeOp len f s)).2.1
    have hstatus : ∀ st, (statusWord (completeOp len f s)).extractLsb' 1 2 = statusCode st →
        decodeStatus s.params len f s.table = st := fun st h =>
      (statusCode_eq_iff _ _).1 (hcode.symm.trans h)
    exact ⟨hcode.trans (statusCode_decodeStatus _ _ _ _), fun h => decodeFrame_ok (hstatus .ok h),
      fun h => decodeFrame_invalidLength (hstatus .invalidLength h),
      fun h => decodeFrame_parityMismatch (hstatus .parityMismatch h),
      fun h => decodeFrame_unknownModeOrUnit (hstatus .unknownModeOrUnit h)⟩
  · obtain ⟨hunit, hbase, htyp, hinfo, hul, hres, hduty, hhit, hpar, hzero⟩ := diagWord_fields d
    exact ⟨hunit, hbase, htyp, hinfo, hul, diagWord_digit d, hres, hduty, hhit, hpar, hzero⟩

end Sys2Proof.Machine
end

section
/-! The frame of DECODE (spec/20_memory.md R56, R58). -/

namespace Sys2Proof.Machine

theorem exec_decode (len : Len) (f : Frame) (s : State) :
    exec (.decode len f) s = .next (completeOp len f s) := rfl

/-- Settles O35: DECODE is COMPLETE, whose frame is one lemma per field. -/
theorem decodeWritesOnlyTheResult : Obligations.DecodeWritesOnlyTheResult := by
  unfold Obligations.DecodeWritesOnlyTheResult
  intro s t len f hexec
  rw [exec_decode] at hexec
  cases hexec
  simp

end Sys2Proof.Machine
end

section
/-! Several instances while no reset is up (spec/20_memory.md R63; spec/60_exceptions.md R240). -/

namespace Sys2Proof.Machine

theorem clusterInReset_eq_false {insts : Cluster} (hrst : ∀ x ∈ insts, x.port.rst = false) :
    clusterInReset insts = false :=
  List.any_eq_false.2 fun x hx => by simp [hrst x hx]

/-- While no reset is up, the move of instance `k` is its own step, put in its place (R63). -/
theorem clusterStep_eq_set {insts : Cluster} {k : Nat} {s t : State}
    (hrst : ∀ x ∈ insts, x.port.rst = false) (hk : insts[k]? = some s) (hstep : step s = .next t) :
    clusterStep k insts = .next (insts.set k t) := by
  simp [clusterStep, clusterInReset_eq_false hrst, hk, hstep]

/-- Instances stay shared when one is replaced by a block of the same build and table. -/
theorem clusterShares_set {p : Params} {tbl : Memory} {insts : Cluster} (k : Nat) {t : State}
    (hshares : clusterShares p tbl insts) (ht : t.params = p ∧ t.table = tbl) :
    clusterShares p tbl (insts.set k t) := by
  intro x hx
  rcases List.mem_or_eq_of_mem_set hx with hmem | rfl
  · exact hshares x hmem
  · exact ht

/-- Settles O54: a step without reset keeps the build and the table of the instance that takes it. -/
theorem instancesDoNotInterfere : Obligations.InstancesDoNotInterfere := by
  unfold Obligations.InstancesDoNotInterfere
  intro insts k s hrst hk
  have hmem : s ∈ insts := List.mem_of_getElem? hk
  obtain ⟨t, hstep, -⟩ := exists_stepCase s
  obtain ⟨-, hparams, htable⟩ := step_port_params_table hstep
  rw [hrst s hmem, if_neg Bool.false_ne_true] at htable
  refine ⟨t, hstep, clusterStep_eq_set hrst hk hstep, ?_, fun j hj => List.getElem?_set_ne hj.symm,
    fun p tbl hshares => ?_⟩
  · exact List.getElem?_set_self (List.getElem?_eq_some_iff.1 hk).1
  · obtain ⟨hp, htbl⟩ := hshares s hmem
    exact clusterShares_set k hshares ⟨hparams.trans hp, htable.trans htbl⟩

end Sys2Proof.Machine
end

section
/-! What a host script observes (spec/20_memory.md R61; spec/70_reset_and_hazards.md R264, R265). -/

namespace Sys2Proof.Machine

/-- The RESET transaction leaves the reset state of the block's own build, from any state (R86, R260). -/
theorem transact_reset (s : State) : transact .reset s = .next (State.resetWith s.params, []) := by
  rw [transact, step_of_rst rfl]
  rfl

theorem runScript_cons {x : Transaction} {ts : List Transaction} {s s' t : State} {rs rs' : List Result}
    (hx : transact x s = .next (s', rs)) (hts : runScript ts s' = .next (t, rs')) :
    runScript (x :: ts) s = .next (t, rs ++ rs') := by
  rw [runScript, hx, andThen_next, hts, andThen_next]

/-- A script runs through from a ready idle block, transaction by transaction (R61, R264, R265). -/
theorem runScript_of_ready (ts : List Transaction) : ∀ {s : State}, s.ready = true → s.busy = false →
    ∃ t, runScript ts s = .next (t, scriptResults s.params s.table ts) ∧ t.ready = true ∧ t.busy = false ∧
      t.params = s.params ∧
      t.table = if Transaction.reset ∈ ts then loadTable s.params.lutInit else s.table := by
  induction ts with
  | nil => exact fun {s} hready hbusy => ⟨s, rfl, hready, hbusy, rfl, rfl⟩
  | cons x ts ih =>
    intro s hready hbusy
    cases x with
    | reset =>
      obtain ⟨t, hrun, hready', hbusy', hparams', htable'⟩ := ih (s := State.resetWith s.params) rfl rfl
      exact ⟨t, runScript_cons (transact_reset s) hrun, hready', hbusy', hparams', by simp [htable']⟩
    | decode len f =>
      obtain ⟨s₁, hdecode, hready₁, hbusy₁, hparams₁, htable₁⟩ := transact_decode len f hready
      obtain ⟨t, hrun, hready', hbusy', hparams', htable'⟩ := ih hready₁ hbusy₁
      rw [hparams₁, htable₁] at hrun htable'
      exact ⟨t, runScript_cons hdecode hrun, hready', hbusy', hparams'.trans hparams₁, by simp [htable']⟩

/-- A script that starts with a RESET runs from any state as the rest of it from the reset state (R35, R86). -/
theorem runScript_reset_cons (s : State) (ts : List Transaction) :
    ∃ t, runScript (.reset :: ts) s = .next (t, scriptResults s.params (loadTable s.params.lutInit) ts) ∧
      t.ready = true ∧ t.busy = false ∧ t.params = s.params ∧ tableIsLutInit t := by
  obtain ⟨t, hrun, hready, hbusy, hparams, htable⟩ := runScript_of_ready ts (s := State.resetWith s.params) rfl rfl
  rw [resetWith_params] at hparams
  refine ⟨t, runScript_cons (transact_reset s) hrun, hready, hbusy, hparams, ?_⟩
  rw [tableIsLutInit, htable, hparams, resetWith_params, resetWith_table, ite_self]

/-- Settles O51: under `LUT_INIT` a RESET changes no later observation, since it loads the table that stands. -/
theorem scriptResultsAreDecodesInOrder : Obligations.ScriptResultsAreDecodesInOrder := by
  unfold Obligations.ScriptResultsAreDecodesInOrder
  refine ⟨fun s ts hready hbusy => runScript_of_ready ts hready hbusy, runScript_reset_cons, fun s ts hlut => ?_⟩
  rw [tableIsLutInit] at hlut
  rw [hlut]
  induction ts with
  | nil => rfl
  | cons x ts ih =>
    cases x with
    | reset => simpa [scriptResults] using ih
    | decode len f => simp [scriptResults, ih]

end Sys2Proof.Machine
end

section
/-! Decoder and encoder (spec/30_encoding.md R79, R83, R88): the instructions by format, and the round trip in both
directions. -/

namespace Sys2Proof.Machine

/-- Every MODESEL row is the row of a code (R80, R88), so an instruction has one of five shapes. -/
theorem instr_cases (i : Instr) : (∃ len f, i = .decode len f) ∨ (∃ c u, i = modeselOf c u) ∨
    (∃ b, i = .ovrFreq b) ∨ (∃ b, i = .ovrDutyBit b) ∨ ∃ b, i = .ovrDutyEq b := by
  cases i with
  | decode len f => exact .inl ⟨len, f, rfl⟩
  | modeselCurrentA u => exact .inr (.inl ⟨0x0, u, rfl⟩)
  | modeselDiode u => exact .inr (.inl ⟨0x1, u, rfl⟩)
  | modeselFrequency u => exact .inr (.inl ⟨0x2, u, rfl⟩)
  | modeselResistance u => exact .inr (.inl ⟨0x3, u, rfl⟩)
  | modeselInvalid4 u => exact .inr (.inl ⟨0x4, u, rfl⟩)
  | modeselContinuity u => exact .inr (.inl ⟨0x5, u, rfl⟩)
  | modeselCapacitance u => exact .inr (.inl ⟨0x6, u, rfl⟩)
  | modeselInvalid7 u => exact .inr (.inl ⟨0x7, u, rfl⟩)
  | modeselDuty u => exact .inr (.inl ⟨0x8, u, rfl⟩)
  | modeselInvalid9 u => exact .inr (.inl ⟨0x9, u, rfl⟩)
  | modeselInvalidA u => exact .inr (.inl ⟨0xA, u, rfl⟩)
  | modeselVoltage u => exact .inr (.inl ⟨0xB, u, rfl⟩)
  | modeselInvalidC u => exact .inr (.inl ⟨0xC, u, rfl⟩)
  | modeselCurrentUa u => exact .inr (.inl ⟨0xD, u, rfl⟩)
  | modeselInvalidE u => exact .inr (.inl ⟨0xE, u, rfl⟩)
  | modeselCurrentMa u => exact .inr (.inl ⟨0xF, u, rfl⟩)
  | ovrFreq b => exact .inr (.inr (.inl ⟨b, rfl⟩))
  | ovrDutyBit b => exact .inr (.inr (.inr (.inl ⟨b, rfl⟩)))
  | ovrDutyEq b => exact .inr (.inr (.inr (.inr ⟨b, rfl⟩)))

/-- A row is its address as a byte, whatever the code (R83), and every unit index is legal (R82). -/
theorem encode_modeselOf (c : Nibble) (u : UnitIndex) :
    encode (modeselOf c u) = (.modesel, [modeselByte c u]) ∧ WellFormed (modeselOf c u) = true := by
  revert c u; decide

/-- Settles O1: a case per format, each by what the decoder answers on that format's bytes. -/
theorem decodeOfEncodeIsIdentity : Obligations.DecodeOfEncodeIsIdentity := by
  unfold Obligations.DecodeOfEncodeIsIdentity
  intro i hwf
  obtain ⟨len, f, rfl⟩ | ⟨c, u, rfl⟩ | ⟨b, rfl⟩ | ⟨b, rfl⟩ | ⟨b, rfl⟩ := instr_cases i
  · exact decodeAs_frameBytes len f
  · rw [(encode_modeselOf c u).1]; exact decodeModesel_byte c u
  · exact (decodeOvr_fired b).1 hwf
  · exact (decodeOvr_fired b).2.1 hwf
  · exact (decodeOvr_fired b).2.2 hwf

/-- A number's two bytes stand in it low byte first (log entry 7). -/
theorem frameBytes_of_bytes (l0 l1 : Byte) (f : Frame) : frameBytes (l1 ++ l0) f =
    [l0, l1, f[0], f[1], f[2], f[3], f[4], f[5], f[6], f[7], f[8], f[9], f[10], f[11], f[12], f[13]] := by
  have hlo : BitVec.extractLsb' 0 8 (l1 ++ l0) = l0 := BitVec.extractLsb'_append_eq_right
  have hhi : BitVec.extractLsb' 8 8 (l1 ++ l0) = l1 := BitVec.extractLsb'_append_eq_left
  rw [frameBytes, hlo, hhi]

theorem encode_of_decodeAs_frame14 {bytes : List Byte} {i : Instr} (h : decodeAs .frame14 bytes = .instr i) :
    encode i = (.frame14, bytes) ∧ WellFormed i = true := by
  match bytes, h with
  | [_, _, _, _, _, _, _, _, _, _, _, _, _, _, _, _], h =>
    cases h
    rw [encode, frameBytes_of_bytes]
    exact ⟨rfl, rfl⟩

/-- A byte with bit 7 clear is the address in its low seven bits, or the masked raw byte there (log entry 7). -/
theorem byte_of_bit7_clear {b : Byte} (h : ¬b.getLsbD 7 = true) :
    modeselByte (b.extractLsb' 3 4) (b.extractLsb' 0 3) = b ∧ rawInByte (b.extractLsb' 0 7) = b := by
  revert b; decide

theorem encode_of_decodeModesel {b : Byte} {i : Instr} (h : decodeModesel b = .instr i) :
    encode i = (.modesel, [b]) ∧ WellFormed i = true := by
  unfold decodeModesel at h
  split at h
  case isTrue => cases h
  case isFalse hbit =>
    cases h
    rw [(encode_modeselOf _ _).1, (byte_of_bit7_clear hbit).1]
    exact ⟨rfl, (encode_modeselOf _ _).2⟩

/-- Only a fired selector decodes, and its offset and mask are its row's (R88). -/
theorem encode_of_decodeOvr {b offset mask : Byte} {i : Instr} (h : decodeOvr b offset mask = .instr i) :
    encode i = (.ovr, [b, offset, mask]) ∧ WellFormed i = true := by
  simp only [decodeOvr] at h
  split_ifs at h with hbit hrow hfires hrow hfires hrow hfires
  all_goals
    cases h
    obtain ⟨rfl, rfl⟩ := hrow
    rw [encode, (byte_of_bit7_clear hbit).2]
    exact ⟨rfl, hfires⟩

/-- Settles O2: a case per format. -/
theorem encodeOfDecodeIsIdentity : Obligations.EncodeOfDecodeIsIdentity := by
  unfold Obligations.EncodeOfDecodeIsIdentity
  intro fmt bytes i h
  cases fmt with
  | frame14 => exact encode_of_decodeAs_frame14 h
  | modesel =>
    match bytes, h with
    | [_], h => exact encode_of_decodeModesel h
  | ovr =>
    match bytes, h with
    | [_, _, _], h => exact encode_of_decodeOvr h

/-- Settles O3: fixed words, evaluated. -/
theorem tableWordsDecodeToTheirRows : Obligations.TableWordsDecodeToTheirRows := by
  unfold Obligations.TableWordsDecodeToTheirRows
  decide

end Sys2Proof.Machine
end

section
/-! An opcode-table word put into a state (spec/30_encoding.md R88; log entry 8): the DECODE it places in flight
fetches that instruction. -/

namespace Sys2Proof.Machine

/-- A DECODE of length 14 placed with a step of LATENCY left fetches the selector of its stage. -/
theorem fetched_inFlight {f : Frame} {st : Stage} {s : State} {i : Instr}
    (h : stageInstr (inFlight 14 f st 1 s) st = some i) : fetched (inFlight 14 f st 1 s) = some (.instr i) := by
  rw [fetched_countdown_pos Nat.one_ne_zero]
  exact congrArg _ h

/-- The frame that presents the table row of a MODESEL byte: the unit index in byte 0 and the mode nibble in byte 6
(R71, R83). -/
def lookupFrame (b : Byte) : Frame := (oneByteFrame 0 (b &&& 0x7)).set 6 (b >>> 3)

theorem placeInstr_of_encode_modesel {i : Instr} {b : Byte} (s : State) (h : encode i = (.modesel, [b])) :
    placeInstr i s = inFlight 14 (lookupFrame b) .lookup 1 s := by
  cases i <;> cases h <;> rfl

theorem lookupFrame_fields (c : Nibble) (u : UnitIndex) :
    extMode (maskFrame (lookupFrame (modeselByte c u))) = c ∧
      (lookupFrame (modeselByte c u))[0].extractLsb' 0 3 = u := by
  have h : ∀ (c : Nibble) (u : UnitIndex), (maskByte (modeselByte c u >>> 3)).extractLsb' 0 4 = c ∧
      (modeselByte c u &&& 0x7).extractLsb' 0 3 = u := by decide
  rw [extMode, maskFrame_get]
  exact h c u

/-- What the override rows test of a masked raw byte, in the byte that holds it (R88). -/
theorem rawInByte_fires (b : RawByte) : (rawInByte b).extractLsb' 0 7 = b ∧
    (rawInByte b).getLsbD 0 = firesFreq b ∧ (rawInByte b).getLsbD 3 = firesDutyBit b ∧
    ((rawInByte b).toNat % 16 = 8 ↔ firesDutyEq b = true) := by
  revert b; decide

theorem freqInstr_of_fires {s : State} {b : RawByte} (hbyte : s.capByte[10] = rawInByte b)
    (hfires : firesFreq b = true) : freqInstr s = .ovrFreq b := by
  obtain ⟨hraw, hbit, -, -⟩ := rawInByte_fires b
  rw [freqInstr, hbyte, hbit, if_pos hfires, hraw]

theorem dutyBitInstr_of_fires {s : State} {b : RawByte} (hbyte : s.capByte[7] = rawInByte b)
    (hfires : firesDutyBit b = true) : dutyBitInstr s = .ovrDutyBit b := by
  obtain ⟨hraw, -, hbit, -⟩ := rawInByte_fires b
  rw [dutyBitInstr, hbyte, hbit, if_pos hfires, hraw]

theorem dutyEqInstr_of_fires {s : State} {b : RawByte} (hbyte : s.capByte[7] = rawInByte b)
    (hfires : firesDutyEq b = true) : dutyEqInstr s = .ovrDutyEq b := by
  obtain ⟨hraw, -, -, hnibble⟩ := rawInByte_fires b
  rw [dutyEqInstr, hbyte, if_pos (hnibble.2 hfires), hraw]

/-- A placed instruction is the one fetched, if an override's byte fires it (R88). -/
theorem fetched_placeInstr {i : Instr} (s : State) (hwf : WellFormed i = true) :
    fetched (placeInstr i s) = some (.instr i) := by
  obtain ⟨len, f, rfl⟩ | ⟨c, u, rfl⟩ | ⟨b, rfl⟩ | ⟨b, rfl⟩ | ⟨b, rfl⟩ := instr_cases i
  · exact fetched_countdown_zero rfl
  · obtain ⟨hmode, hunit⟩ := lookupFrame_fields c u
    rw [placeInstr_of_encode_modesel s (encode_modeselOf c u).1]
    exact fetched_inFlight (congrArg some (congrArg₂ modeselOf hmode hunit))
  · exact fetched_inFlight (congrArg some (freqInstr_of_fires rfl hwf))
  · exact fetched_inFlight (congrArg some (dutyBitInstr_of_fires rfl hwf))
  · exact fetched_inFlight (congrArg some (dutyEqInstr_of_fires rfl hwf))

/-- Every placed instruction is a DECODE in flight without reset. -/
theorem placeInstr_inFlight (i : Instr) (s : State) : (placeInstr i s).port.rst = false ∧ (placeInstr i s).busy = true := by
  cases i <;> exact ⟨rfl, rfl⟩

theorem wellFormed_of_toOption {fmt : Format} {bytes : List Byte} {i : Instr}
    (h : (decodeAs fmt bytes).toOption = some i) : WellFormed i = true := by
  cases hd : decodeAs fmt bytes with
  | instr j =>
    rw [hd] at h
    cases h
    exact (encodeOfDecodeIsIdentity fmt bytes i hd).2
  | reject why => rw [hd] at h; cases h

theorem wellFormed_of_decodeTableWord {nbits w : Nat} {i : Instr} (h : decodeTableWord nbits w = some i) :
    WellFormed i = true := by
  unfold decodeTableWord at h
  split_ifs at h <;> exact wellFormed_of_toOption h

/-- Settles O42: the word's instruction is well formed, so its placing fetches it. -/
theorem placedWordIsRunByTheNextStep : Obligations.PlacedWordIsRunByTheNextStep := by
  unfold Obligations.PlacedWordIsRunByTheNextStep
  intro s nbits w i hword
  have hplace : s.withFetchWord nbits w = placeInstr i s := by rw [State.withFetchWord, hword]
  obtain ⟨hrst, hbusy⟩ := placeInstr_inFlight i s
  rw [hplace]
  exact step_runs hrst hbusy (fetched_placeInstr s (wellFormed_of_decodeTableWord hword))

end Sys2Proof.Machine
end

section
/-! The bits of a frame that a DECODE ignores (spec/30_encoding.md R84): frames with the same used bits give the
same fields, and the fields give everything but the raw bank and the parity vector. -/

namespace Sys2Proof.Machine

/-- The fields the extractor reads are the same (R120 to R125). -/
structure SameFields (q r : RawFrame) : Prop where
  typ : extType q = extType r
  info : extInfo q = extInfo r
  underload : extUnderload q = extUnderload r
  mode : extMode q = extMode r
  unitIndex : extUnitIndex q = extUnitIndex r
  digits : extDigits q = extDigits r

theorem lowNibble_maskFrame_eq {f g : Frame} (i : Nat) (hi : i < 14) (h : f[i].toNat % 16 = g[i].toNat % 16) :
    (maskFrame f)[i].extractLsb' 0 4 = (maskFrame g)[i].extractLsb' 0 4 := by
  rw [maskFrame_get, maskFrame_get]
  exact BitVec.eq_of_toNat_eq (by rw [lowNibble_toNat, lowNibble_toNat, h])

/-- Digit `k` stands in byte `k + 1` (R125). -/
theorem extDigits_get (r : RawFrame) (k : Nat) (hk : k < 5) : (extDigits r)[k] = r[k + 1].extractLsb' 0 4 := by
  interval_cases k <;> rfl

theorem sameFields_of_usedBits {f g : Frame} (hunit : f[0].toNat % 8 = g[0].toNat % 8)
    (hnibble : ∀ i : Fin 14, (1 ≤ i.val ∧ i.val ≤ 7) ∨ i.val = 10 → f[i].toNat % 16 = g[i].toNat % 16)
    (hul : f[9].getLsbD 3 = g[9].getLsbD 3) : SameFields (maskFrame f) (maskFrame g) where
  typ := lowNibble_maskFrame_eq 10 _ (hnibble 10 (by decide))
  info := lowNibble_maskFrame_eq 7 _ (hnibble 7 (by decide))
  underload := by
    have hbit : ∀ b : Byte, (maskByte b).getLsbD 3 = b.getLsbD 3 := by decide
    simp only [extUnderload, maskFrame_get, hbit, hul]
  mode := lowNibble_maskFrame_eq 6 _ (hnibble 6 (by decide))
  unitIndex := BitVec.eq_of_toNat_eq (by rw [extUnitIndex_toNat, extUnitIndex_toNat, hunit])
  digits := by
    ext1 k hk
    rw [extDigits_get _ k hk, extDigits_get _ k hk]
    have hk' : k + 1 < 14 := by omega
    exact lowNibble_maskFrame_eq (k + 1) hk' (hnibble ⟨k + 1, hk'⟩ (.inl (by simp only; omega)))

theorem SameFields.frameWord_eq {q r : RawFrame} (h : SameFields q r) (p : Params) (t : Memory) :
    frameWord p q t = frameWord p r t := by
  simp only [frameWord, resolvedMode, h.typ, h.info, h.mode, h.unitIndex]

/-- The measurement group is computed from the fields alone (R190, R194). -/
theorem SameFields.measurementOf_eq {f g : Frame} (h : SameFields (maskFrame f) (maskFrame g)) (p : Params)
    (t : Memory) : measurementOf p f t = measurementOf p g t := by
  simp only [measurementOf, h.frameWord_eq, resolvedMode, flagNegative, flagOverload, flagUnderload, flagFreq, flagDuty,
    flagDc, flagAc, h.typ, h.info, h.underload, h.mode, h.digits]

/-- So is the diagnostic group, but for the parity vector and the raw bank (R190, R193). -/
theorem SameFields.diagnosticOf_eq {f g : Frame} (h : SameFields (maskFrame f) (maskFrame g)) (p : Params)
    (t : Memory) : { diagnosticOf p f t with parOk := 0, raw := Vector.replicate 14 0 } =
      { diagnosticOf p g t with parOk := 0, raw := Vector.replicate 14 0 } := by
  simp only [diagnosticOf, h.frameWord_eq, resolvedMode, h.typ, h.info, h.underload, h.mode, h.unitIndex, h.digits]

/-- The diagnostic group is driven at length 14, whatever the status (R193). -/
theorem decodeFrame_diag {p : Params} {len : Len} {f : Frame} {t : Memory} (hlen : len.toNat = 14) :
    (decodeFrame p len f t).diag = diagnosticOf p f t := by
  cases hst : decodeStatus p len f t with
  | ok => exact (decodeFrame_ok hst).2
  | invalidLength =>
    rw [decodeStatus_eq, if_neg (not_not.2 hlen)] at hst
    split_ifs at hst
  | parityMismatch => exact (decodeFrame_parityMismatch hst).2
  | unknownModeOrUnit => exact (decodeFrame_unknownModeOrUnit hst).2.1

/-- Settles O10: the fields decide the lookup and the groups, and the parity verdict the rest of the status. -/
theorem ignoredBitsChangeNothingElse : Obligations.IgnoredBitsChangeNothingElse := by
  unfold Obligations.IgnoredBitsChangeNothingElse
  intro s f g hunit hnibble hul
  have hfields := sameFields_of_usedBits hunit hnibble hul
  refine ⟨_, _, exec_decode 14 f s, exec_decode 14 g s, ?_, fun hpar => ?_⟩
  · rw [completeOp_res, completeOp_res, decodeFrame_diag rfl, decodeFrame_diag rfl]
    exact hfields.diagnosticOf_eq s.params s.table
  · have hall : parAll f = parAll g := Bool.eq_iff_iff.2 (by rw [parAll_iff, parAll_iff]; exact hpar)
    have hstatus : decodeStatus s.params 14 f s.table = decodeStatus s.params 14 g s.table := by
      rw [decodeStatus, decodeStatus, hall, hfields.frameWord_eq]
    simp only [completeOp_res, decodeFrame, hstatus, hfields.measurementOf_eq, and_self]

end Sys2Proof.Machine
end

section
/-! The frames of DECODE.F and DECODE.F!k (spec/30_encoding.md R87). -/

namespace Sys2Proof.Machine

/-- A byte built with its parity bit has odd parity, and its low seven bits are the value (R87, R101). -/
theorem withParity_spec (v : RawByte) : parOk (withParity v) = true ∧ maskByte (withParity v) = v := by
  revert v; decide

/-- Inverting bit 7 inverts the parity and leaves the low seven bits (R101, R104). -/
theorem flipBit7_spec (b : Byte) : parOk (b ^^^ 0x80) = !parOk b ∧ maskByte (b ^^^ 0x80) = maskByte b := by
  revert b; decide

/-- The low seven bits of the bytes of DECODE.F (R87). -/
def fieldBits (u : UnitIndex) (d : Vector Nibble 5) (m i : Nibble) (ul : Bool) (t : Nibble) : RawFrame :=
  #v[0x6#4 ++ u, 0x3#3 ++ d[0], 0x3#3 ++ d[1], 0x3#3 ++ d[2], 0x3#3 ++ d[3], 0x3#3 ++ d[4], 0x3#3 ++ m, 0x3#3 ++ i,
    0x30, 0x3#3 ++ BitVec.ofBool ul ++ 0#3, 0x3#3 ++ t, 0x30, 0x0D, 0x0A]

theorem frameOfFields_eq_map (u : UnitIndex) (d : Vector Nibble 5) (m i : Nibble) (ul : Bool) (t : Nibble) :
    frameOfFields u d m i ul t = (fieldBits u d m i ul t).map withParity := by
  simp only [frameOfFields, fieldBits, Vector.map_mk, List.map_toArray, List.map_cons, List.map_nil]

theorem maskFrame_map_withParity (r : RawFrame) : maskFrame (r.map withParity) = r := by
  ext1 k hk
  rw [maskFrame_get _ k hk, Vector.getElem_map, (withParity_spec _).2]

theorem parOk_map_withParity (r : RawFrame) (k : Fin 14) : parOk (r.map withParity)[k] = true := by
  rw [Fin.getElem_fin, Vector.getElem_map, (withParity_spec _).1]

/-- DECODE.F!k inverts the parity of byte `k` alone (R87). -/
theorem parOk_flipParity (f : Frame) (k j : Fin 14) :
    parOk (flipParity f k)[j] = if j = k then !parOk f[j] else parOk f[j] := by
  simp only [flipParity, Fin.getElem_fin, Vector.getElem_set, eq_comm (a := k.val), Fin.val_inj]
  split
  case isTrue h => rw [h, (flipBit7_spec _).1]
  case isFalse => rfl

theorem maskFrame_flipParity (f : Frame) (k : Fin 14) : maskFrame (flipParity f k) = maskFrame f := by
  ext1 j hj
  rw [maskFrame_get _ j hj, maskFrame_get _ j hj, flipParity, Vector.getElem_set]
  split
  case isTrue h => subst h; exact (flipBit7_spec _).2
  case isFalse => rfl

/-- The filler 0x30 above a digit nibble, above the unit index and above the underload bit (R87). -/
theorem filler_append (n : Nibble) : 0x3#3 ++ n = 0x30#7 ||| n.setWidth 7 := by revert n; decide

theorem filler_append_unit (u : UnitIndex) : 0x6#4 ++ u = 0x30#7 ||| u.setWidth 7 := by revert u; decide

theorem filler_append_underload (ul : Bool) :
    0x3#3 ++ BitVec.ofBool ul ++ 0#3 = 0x30#7 ||| ((BitVec.ofBool ul).setWidth 7 <<< 3) := by revert ul; decide

theorem fieldBits_eq (u : UnitIndex) (d : Vector Nibble 5) (m i : Nibble) (ul : Bool) (t : Nibble) :
    fieldBits u d m i ul t = #v[0x30#7 ||| u.setWidth 7, 0x30#7 ||| d[0].setWidth 7, 0x30#7 ||| d[1].setWidth 7,
      0x30#7 ||| d[2].setWidth 7, 0x30#7 ||| d[3].setWidth 7, 0x30#7 ||| d[4].setWidth 7,
      0x30#7 ||| m.setWidth 7, 0x30#7 ||| i.setWidth 7, 0x30,
      0x30#7 ||| ((BitVec.ofBool ul).setWidth 7 <<< 3), 0x30#7 ||| t.setWidth 7, 0x30, 0x0D, 0x0A] := by
  simp only [fieldBits, filler_append, filler_append_unit, filler_append_underload]

/-- The extractor reads each field back from below its filler (R120 to R125). -/
theorem ext_fieldBits (u : UnitIndex) (d : Vector Nibble 5) (m i : Nibble) (ul : Bool) (t : Nibble) :
    extUnitIndex (fieldBits u d m i ul t) = u ∧ extDigits (fieldBits u d m i ul t) = d ∧
      extMode (fieldBits u d m i ul t) = m ∧ extInfo (fieldBits u d m i ul t) = i ∧
      extUnderload (fieldBits u d m i ul t) = ul ∧ extType (fieldBits u d m i ul t) = t := by
  have hul : ∀ ul, (0x3#3 ++ BitVec.ofBool ul ++ 0#3).getLsbD 3 = ul := by decide
  have hdigits : extDigits (fieldBits u d m i ul t) = d := by
    ext1 k hk
    interval_cases k <;> exact BitVec.extractLsb'_append_eq_right
  exact ⟨BitVec.extractLsb'_append_eq_right, hdigits, BitVec.extractLsb'_append_eq_right,
    BitVec.extractLsb'_append_eq_right, hul ul, BitVec.extractLsb'_append_eq_right⟩

/-- Settles O59: what R87 says of one byte, for the fourteen of the frame, and the two scenarios evaluated. -/
theorem builtFramesHoldTheirFields : Obligations.BuiltFramesHoldTheirFields := by
  unfold Obligations.BuiltFramesHoldTheirFields
  refine ⟨fun u d m i t ul => ?_, by decide, by decide⟩
  simp only [frameOfFields_eq_map, maskFrame_flipParity, maskFrame_map_withParity]
  refine ⟨fieldBits_eq u d m i ul t, parOk_map_withParity _, fun k j => ?_, fun _ => trivial,
    ext_fieldBits u d m i ul t⟩
  rw [parOk_flipParity, parOk_map_withParity]
  by_cases h : j = k <;> simp [h]

end Sys2Proof.Machine
end

section
/-! The parity fold on the bits of a byte (spec/40_parity.md R101, R103, R106). -/

namespace Sys2Proof.Machine

/-- The fold is the exclusive or of the low eight bits, at any width (R101). -/
theorem foldParity_eq_xor_bits {w : Nat} (b : BitVec w) :
    foldParity b = (b.getLsbD 7 ^^ b.getLsbD 6 ^^ b.getLsbD 5 ^^ b.getLsbD 4 ^^ b.getLsbD 3 ^^ b.getLsbD 2 ^^
      b.getLsbD 1 ^^ b.getLsbD 0) := by
  simp only [foldParity, BitVec.getLsbD_xor, BitVec.getLsbD_ushiftRight, Nat.reduceAdd]
  simp only [Bool.xor_comm, Bool.xor_left_comm, Bool.xor_assoc]

/-- Settles O5: the fold at eight bits; the odd-parity bit solves that equation for bit 7. -/
theorem parityFoldIsXorOfAllBits : Obligations.ParityFoldIsXorOfAllBits := by
  unfold Obligations.ParityFoldIsXorOfAllBits
  refine ⟨fun b => foldParity_eq_xor_bits b, fun b => ?_, by decide⟩
  rw [parOk, foldParity_eq_xor_bits, Bool.true_xor, Bool.eq_not, ← Bool.xor_iff_ne]
  simp only [Bool.xor_assoc]

/-- Settles O6: the fold sees the low eight bits only, and the sign extension keeps them (R103). -/
theorem signedBytesGiveTheSameParity : Obligations.SignedBytesGiveTheSameParity := by
  unfold Obligations.SignedBytesGiveTheSameParity
  intro b
  have hbit : ∀ i, i < 8 → (b.signExtend 32).getLsbD i = b.getLsbD i := fun i hi => by
    rw [BitVec.getLsbD_signExtend, if_pos hi, decide_eq_true (by omega), Bool.true_and]
  simp only [parOk, foldParity_eq_xor_bits, hbit, Nat.reduceLT]

end Sys2Proof.Machine
end

section
/-! The parity vector and the mask of a DECODE of length 14 (spec/40_parity.md R102, R104). -/

namespace Sys2Proof.Machine

/-- At length 14 the diagnostic group is driven, whatever the parity verdict (R104, R193). -/
theorem completeOp_diag (f : Frame) (s : State) :
    (completeOp 14 f s).res.diag = diagnosticOf s.params f s.table :=
  decodeFrame_diag (len := 14) rfl

@[simp] theorem diagnosticOf_parOk (p : Params) (f : Frame) (t : Memory) : (diagnosticOf p f t).parOk = parVec f := rfl

@[simp] theorem diagnosticOf_raw (p : Params) (f : Frame) (t : Memory) : (diagnosticOf p f t).raw = maskFrame f := rfl

/-- Inverting bit 7 of byte `k` changes bit `k` of the parity vector alone (R102). -/
theorem parVec_flipParity_get (f : Frame) (k i : Fin 14) :
    (parVec (flipParity f k)).getLsbD i = ((parVec f).getLsbD i ^^ decide (i = k)) := by
  rw [parVec_get, parVec_get, parOk_flipParity]
  by_cases h : i = k <;> simp [h]

/-- All bytes pass exactly if the parity vector is all ones (R102). -/
theorem parVec_eq_ones_iff (f : Frame) : parVec f = 0x3FFF ↔ ∀ i : Fin 14, parOk f[i] = true := by
  rw [← parAll_iff, parAll, beq_iff_eq]

/-- At length 14 the status is PARITY_MISMATCH exactly if some byte fails (R102, R233). -/
theorem decodeStatus_eq_parityMismatch_iff {len : Len} (hlen : len.toNat = 14) (p : Params) (f : Frame) (t : Memory) :
    decodeStatus p len f t = .parityMismatch ↔ ∃ i : Fin 14, parOk f[i] = false := by
  rw [decodeStatus_eq, if_neg (not_not.2 hlen)]
  split_ifs with hfail
  · exact iff_of_true rfl hfail
  · exact iff_of_false nofun hfail
  · exact iff_of_false nofun hfail

/-- Settles O7: the diagnostic group at length 14 holds the vector, whose bits are the verdicts. -/
theorem parityVectorPerByte : Obligations.ParityVectorPerByte := by
  unfold Obligations.ParityVectorPerByte
  intro s f
  refine ⟨_, exec_decode 14 f s, ?_⟩
  have hstatus : (completeOp 14 f s).res.status = .parityMismatch ↔ ∃ i : Fin 14, parOk f[i] = false :=
    decodeStatus_eq_parityMismatch_iff (len := 14) rfl s.params f s.table
  rw [completeOp_diag, diagnosticOf_parOk]
  refine ⟨parVec_get f, hstatus.2, fun hpass => ⟨(parVec_eq_ones_iff f).2 hpass, fun hst => ?_⟩,
    parVec_flipParity_get f⟩
  obtain ⟨i, hfail⟩ := hstatus.1 hst
  exact Bool.false_ne_true (hfail.symm.trans (hpass i))

theorem maskFrame_eq_of_lowSevenBits {f g : Frame} (h : ∀ i : Fin 14, f[i].toNat % 128 = g[i].toNat % 128) :
    maskFrame f = maskFrame g := by
  ext1 k hk
  rw [maskFrame_get _ k hk, maskFrame_get _ k hk]
  exact BitVec.eq_of_toNat_eq (by rw [maskByte_toNat, maskByte_toNat]; exact h ⟨k, hk⟩)

/-- Settles O8: both groups but for the parity vector are computed from the masked frame. -/
theorem maskKeepsLowSevenBits : Obligations.MaskKeepsLowSevenBits := by
  unfold Obligations.MaskKeepsLowSevenBits
  constructor
  · intro s f
    refine ⟨_, exec_decode 14 f s, fun i => ?_⟩
    rw [completeOp_diag, diagnosticOf_raw, Fin.getElem_fin, maskFrame_get, maskByte_toNat, Fin.getElem_fin]
  · intro s f g hlow
    have hmask := maskFrame_eq_of_lowSevenBits hlow
    refine ⟨_, _, exec_decode 14 f s, exec_decode 14 g s, ?_, fun hstatus => ?_⟩
    · rw [completeOp_diag, completeOp_diag]
      simp only [diagnosticOf, hmask]
    · simp only [completeOp_res, decodeFrame] at hstatus ⊢
      rw [hstatus, measurementOf, measurementOf, hmask]

end Sys2Proof.Machine
end

section
/-! The fields of a DECODE of length 14 as numbers of the captured bytes (spec/41_field_extract.md). -/

namespace Sys2Proof.Machine

theorem lowNibble_maskFrame_toNat (f : Frame) (i : Nat) (hi : i < 14) :
    ((maskFrame f)[i].extractLsb' 0 4).toNat = f[i].toNat % 16 := by
  rw [maskFrame_get, lowNibble_toNat]

theorem extType_toNat (f : Frame) : (extType (maskFrame f)).toNat = f[10].toNat % 16 :=
  lowNibble_maskFrame_toNat f 10 _

theorem extInfo_toNat (f : Frame) : (extInfo (maskFrame f)).toNat = f[7].toNat % 16 :=
  lowNibble_maskFrame_toNat f 7 _

/-- Bit 3 is below the bit that the mask clears (R104, R122). -/
theorem extUnderload_maskFrame (f : Frame) : extUnderload (maskFrame f) = f[9].getLsbD 3 := by
  rw [extUnderload, maskFrame_get, maskByte_eq_extract, BitVec.getLsbD_extractLsb']
  rfl

theorem extDigits_toNat (f : Frame) (k : Nat) (hk : k < 5) :
    (extDigits (maskFrame f))[k].toNat = f[k + 1].toNat % 16 := by
  rw [extDigits_get _ k hk, lowNibble_maskFrame_toNat]

/-- Settles O9: the diagnostic group at length 14 holds what the extractor reads from the masked frame. -/
theorem fieldsAreLowBitsOfTheirBytes : Obligations.FieldsAreLowBitsOfTheirBytes := by
  unfold Obligations.FieldsAreLowBitsOfTheirBytes
  intro s f
  refine ⟨_, exec_decode 14 f s, ?_⟩
  rw [completeOp_diag]
  exact ⟨extType_toNat f, extInfo_toNat f, extUnderload_maskFrame f, extMode_toNat f, extUnitIndex_toNat f,
    extDigits_toNat f 0 _, extDigits_toNat f 1 _, extDigits_toNat f 2 _, extDigits_toNat f 3 _, extDigits_toNat f 4 _⟩

end Sys2Proof.Machine
end

section
/-! Mode resolution of a DECODE of length 14 (spec/42_mode_lut.md R140 to R146), in terms of the captured bytes. -/

namespace Sys2Proof.Machine

@[simp] theorem diagnosticOf_modeBase (p : Params) (f : Frame) (t : Memory) :
    (diagnosticOf p f t).modeBase = extMode (maskFrame f) := rfl

@[simp] theorem diagnosticOf_modeRes (p : Params) (f : Frame) (t : Memory) :
    (diagnosticOf p f t).modeRes = resolvedMode p (maskFrame f) := rfl

@[simp] theorem diagnosticOf_dutyCond (p : Params) (f : Frame) (t : Memory) :
    (diagnosticOf p f t).dutyCond = dutyCond (extInfo (maskFrame f)) := rfl

@[simp] theorem diagnosticOf_lutHit (p : Params) (f : Frame) (t : Memory) :
    (diagnosticOf p f t).lutHit = lutPresent (frameWord p (maskFrame f) t) := rfl

@[simp] theorem measurementOf_mode (p : Params) (f : Frame) (t : Memory) :
    (measurementOf p f t).mode = resolvedMode p (maskFrame f) := rfl

@[simp] theorem measurementOf_unitId (p : Params) (f : Frame) (t : Memory) :
    (measurementOf p f t).unitId = lutUnitId (frameWord p (maskFrame f) t) := rfl

@[simp] theorem measurementOf_scale (p : Params) (f : Frame) (t : Memory) :
    (measurementOf p f t).scale = lutScale (frameWord p (maskFrame f) t) := rfl

@[simp] theorem measurementOf_freq (p : Params) (f : Frame) (t : Memory) :
    (measurementOf p f t).freq = flagFreq (maskFrame f) := rfl

@[simp] theorem measurementOf_duty (p : Params) (f : Frame) (t : Memory) :
    (measurementOf p f t).duty = dutyCond (extInfo (maskFrame f)) := rfl

/-- A completion of status OK reports the measurement group (R192). -/
theorem completeOp_meas_of_ok {len : Len} {f : Frame} {s : State}
    (h : (completeOp len f s).res.status = .ok) :
    (completeOp len f s).res.meas = measurementOf s.params f s.table :=
  (decodeFrame_ok h).1

/-- With good length and parity the lookup alone decides the status (R151, R233). -/
theorem completeOp_status_of_parAll {f : Frame} (s : State) (hpar : parAll f = true) :
    (completeOp 14 f s).res.status =
      if lutPresent (frameWord s.params (maskFrame f) s.table) then .ok else .unknownModeOrUnit := by
  have hlen : lenOk 14 = true := rfl
  simp only [completeOp_res, decodeFrame, decodeStatus, raiseStatus, hlen, hpar]
  cases lutPresent (frameWord s.params (maskFrame f) s.table) <;> rfl

/-- The frequency button of a captured frame (R194). -/
theorem flagFreq_maskFrame (f : Frame) : flagFreq (maskFrame f) = f[10].getLsbD 0 := extType_bit f 0

/-- The duty condition of a captured frame is `info[3]` (R144). -/
theorem dutyCond_maskFrame (f : Frame) : dutyCond (extInfo (maskFrame f)) = f[7].getLsbD 3 := by
  rw [dutyCond_eq_bit]; exact extInfo_bit f 3

/-- The two terms of the duty condition, on the captured byte (R142). -/
theorem dutyCond_maskFrame_terms (f : Frame) :
    dutyCond (extInfo (maskFrame f)) = (f[7].getLsbD 3 || decide (f[7].toNat % 16 = 8)) := by
  obtain ⟨-, -, heq⟩ := fires_rawFrame (maskFrame f)
  obtain ⟨-, -, hbyte⟩ := fires_frame f
  rw [dutyCond, ← heq, hbyte]
  exact congrArg (· || _) (extInfo_bit f 3)

/-- The overrides in the order of R143, on the fields of the frame. -/
theorem resolvedMode_maskFrame (p : Params) (f : Frame) : resolvedMode p (maskFrame f) =
    if f[10].getLsbD 0 then p.modeCode .frequency
    else if dutyCond (extInfo (maskFrame f)) then 0x8
    else extMode (maskFrame f) := by
  rw [resolvedMode, modeRes, ← flagFreq_maskFrame]; rfl

/-- With `type[0] = 1` the lookup is at FREQUENCY's row (R145). -/
theorem frameWord_of_freq {p : Params} {f : Frame} {u : UnitIndex} (t : Memory)
    (hfreq : f[10].getLsbD 0 = true) (hunit : u.toNat = f[0].toNat % 8) :
    frameWord p (maskFrame f) t = lutRead t (lutAddress (p.modeCode .frequency) u) := by
  have hu : extUnitIndex (maskFrame f) = u :=
    BitVec.eq_of_toNat_eq ((extUnitIndex_toNat f).trans hunit.symm)
  rw [frameWord, resolvedMode_maskFrame, if_pos hfreq, hu]

/-- Settles O11: the resolution rule on the diagnostic group, which on OK the measurement group repeats. -/
theorem modeResolution : Obligations.ModeResolution := by
  unfold Obligations.ModeResolution
  intro s f
  refine ⟨_, exec_decode 14 f s, ?_⟩
  rw [completeOp_diag, diagnosticOf_dutyCond, diagnosticOf_modeRes, diagnosticOf_modeBase]
  refine ⟨dutyCond_maskFrame_terms f, resolvedMode_maskFrame s.params f, fun hok => ?_⟩
  rw [completeOp_meas_of_ok hok, measurementOf_mode, measurementOf_duty]
  exact ⟨rfl, rfl⟩

/-- Settles O12: all 16 nibbles, and the one where the terms differ. -/
theorem dutyConditionIsInfoBitThree : Obligations.DutyConditionIsInfoBitThree :=
  ⟨dutyCond_eq_bit, by decide⟩

/-- Settles O13: the base mode is read only where no override applies. -/
theorem overrideReplacesInvalidBase : Obligations.OverrideReplacesInvalidBase := by
  unfold Obligations.OverrideReplacesInvalidBase
  constructor
  · intro s f u hfreq hunit
    refine ⟨_, exec_decode 14 f s, ?_, fun hpar => ?_⟩
    · rw [completeOp_diag, diagnosticOf_modeRes, resolvedMode_maskFrame, if_pos hfreq]
    · rw [completeOp_status_of_parAll s ((parAll_iff f).2 hpar), frameWord_of_freq s.table hfreq hunit]
  · intro s f hfreq hduty hbase
    refine ⟨_, exec_decode 14 f s, ?_⟩
    rw [completeOp_diag]
    rw [diagnosticOf_modeBase, diagnosticOf_modeRes]
    refine ⟨BitVec.eq_of_toNat_eq ((extMode_toNat f).trans hbase), ?_⟩
    rw [resolvedMode_maskFrame, dutyCond_maskFrame, hfreq, hduty]; rfl

/-- Settles O14: with neither flag set the base mode is the resolved mode. -/
theorem baseCodeSelectsModeWithoutFlag : Obligations.BaseCodeSelectsModeWithoutFlag := by
  unfold Obligations.BaseCodeSelectsModeWithoutFlag
  intro s f m _ hfreq hduty hbase hpar hhit
  have hok : (completeOp 14 f s).res.status = .ok := by rw [completeOp_status_of_parAll s hpar, if_pos hhit]
  have hmode : resolvedMode s.params (maskFrame f) = s.params.modeCode m := by
    rw [resolvedMode_maskFrame, dutyCond_maskFrame, hfreq, hduty]
    exact BitVec.eq_of_toNat_eq ((extMode_toNat f).trans hbase)
  refine ⟨_, exec_decode 14 f s, hok, ?_⟩
  rw [completeOp_meas_of_ok hok, measurementOf_mode, measurementOf_freq, measurementOf_duty]
  exact ⟨hmode, (flagFreq_maskFrame f).trans hfreq, (dutyCond_maskFrame f).trans hduty⟩

end Sys2Proof.Machine
end

section
/-! The selector rows on the wires (spec/42_mode_lut.md R140, R142, R143, R150; log entry 1): which row fires on a raw
byte, what it drives and what it leaves. -/

namespace Sys2Proof.Machine

/-- The table read of a slot, at code * 8 + unit index (R30, R150). -/
theorem lutRead_lutAddress (t : Memory) (c : Nibble) (u : UnitIndex) :
    lutRead t (lutAddress c u) = Memory.read t (c.toNat * 8 + u.toNat) := by
  rw [lutRead, lutAddress_toNat]

theorem lutUnitId_toNat (w : LutWord) : (lutUnitId w).toNat = w.toNat / 2 ^ 16 % 16 := by
  rw [lutUnitId, BitVec.extractLsb'_toNat, Nat.shiftRight_eq_div_pow]

theorem lutScale_toNat (w : LutWord) : (lutScale w).toNat = w.toNat % 2 ^ 16 := by
  rw [lutScale, BitVec.extractLsb'_toNat, Nat.shiftRight_zero]

/-- When each override row fires, as a number of its raw byte (R88). -/
theorem fires_toNat (b : RawByte) : (firesFreq b = true ↔ b.toNat % 2 = 1) ∧
    (firesDutyBit b = true ↔ b.toNat / 8 % 2 = 1) ∧ (firesDutyEq b = true ↔ b.toNat % 16 = 8) := by
  revert b; decide

theorem freqOverrideOp_modeRes (fires : Bool) (s : State) : (freqOverrideOp fires s).wires.modeRes =
    if fires then s.params.modeCode .frequency else s.wires.modeRes := by
  cases fires <;> rfl

theorem freqOverrideOp_dutyCond (fires : Bool) (s : State) :
    (freqOverrideOp fires s).wires.dutyCond = s.wires.dutyCond := by
  cases fires <;> rfl

theorem dutyTermOp_dutyCond (fires : Bool) (next : Stage) (s : State) :
    (dutyTermOp fires next s).wires.dutyCond = (s.wires.dutyCond || fires) := by
  cases fires
  · exact (Bool.or_false _).symm
  · exact (Bool.or_true _).symm

/-- A duty term selects DUTY unless the frequency button goes before it (R143). -/
theorem dutyTermOp_modeRes (fires : Bool) (next : Stage) (s : State) : (dutyTermOp fires next s).wires.modeRes =
    if fires = true ∧ s.capByte[10].getLsbD 0 = false then 0x8 else s.wires.modeRes := by
  rw [← flagFreq_maskFrame, dutyTermOp_wires]
  cases fires <;> cases flagFreq (maskFrame s.capByte) <;> rfl

/-- The frequency override leaves the lookup wires (R140). -/
theorem freqOverrideOp_lookupWires (fires : Bool) (s : State) :
    (freqOverrideOp fires s).wires.lutHit = s.wires.lutHit ∧
      (freqOverrideOp fires s).wires.unitId = s.wires.unitId ∧
      (freqOverrideOp fires s).wires.scale = s.wires.scale := by
  cases fires <;> exact ⟨rfl, rfl, rfl⟩

/-- So does a duty term (R140, R142). -/
theorem dutyTermOp_lookupWires (fires : Bool) (next : Stage) (s : State) :
    (dutyTermOp fires next s).wires.lutHit = s.wires.lutHit ∧
      (dutyTermOp fires next s).wires.unitId = s.wires.unitId ∧
      (dutyTermOp fires next s).wires.scale = s.wires.scale := by
  cases fires <;> exact ⟨rfl, rfl, rfl⟩

/-- A code with its MODESEL row (R88). -/
def modeselRow (u : UnitIndex) (n : Fin 16) : Nibble × Instr := (BitVec.ofFin n, modeselOf (BitVec.ofFin n) u)

/-- Settles O15: each of the 16 rows is the row of its code, which runs the lookup there. -/
theorem modeselReadsTheTableWord : Obligations.ModeselReadsTheTableWord := by
  unfold Obligations.ModeselReadsTheTableWord
  intro s u q hmem
  obtain ⟨n, -, rfl⟩ := List.mem_map.1 (show q ∈ (List.finRange 16).map (modeselRow u) from hmem)
  refine ⟨_, exec_modeselOf (BitVec.ofFin n) u s, ?_⟩
  rw [← lutRead_lutAddress]
  exact ⟨rfl, lutUnitId_toNat _, lutScale_toNat _, rfl⟩

/-- Settles O16: the row fires exactly if bit 0 of its byte is 1. -/
theorem ovrFreqSelectsFrequency : Obligations.OvrFreqSelectsFrequency := by
  unfold Obligations.OvrFreqSelectsFrequency
  intro s b
  obtain ⟨hfires, -, -⟩ := fires_toNat b
  refine ⟨freqOverrideOp (firesFreq b) s, rfl, ?_, freqOverrideOp_dutyCond _ s, rfl⟩
  simp only [freqOverrideOp_modeRes, hfires]

/-- Settles O17: both rows are one duty term, each with its own firing condition. -/
theorem ovrDutyTermsSelectDuty : Obligations.OvrDutyTermsSelectDuty := by
  unfold Obligations.OvrDutyTermsSelectDuty
  intro s b
  obtain ⟨-, hbit, heq⟩ := fires_toNat b
  constructor
  · refine ⟨dutyTermOp (firesDutyBit b) .ovrDutyEq s, rfl, rfl, ?_⟩
    simp only [dutyTermOp_dutyCond, dutyTermOp_modeRes, ← hbit, Bool.decide_eq_true, and_self]
  · refine ⟨dutyTermOp (firesDutyEq b) .ovrFreq s, rfl, rfl, ?_⟩
    simp only [dutyTermOp_dutyCond, dutyTermOp_modeRes, ← heq, Bool.decide_eq_true, and_self]

/-- Settles O19: a lookup writes the lookup wires alone, an override the mode and the duty condition alone. -/
theorem selectorsLeaveTheOtherWires : Obligations.SelectorsLeaveTheOtherWires := by
  unfold Obligations.SelectorsLeaveTheOtherWires
  constructor
  · intro s t c u hexec
    rw [exec_modeselOf] at hexec
    cases hexec
    exact ⟨rfl, rfl⟩
  · intro s t b i hmem hexec
    simp only [List.mem_cons, List.not_mem_nil, or_false] at hmem
    rcases hmem with rfl | rfl | rfl <;> cases hexec
    · exact freqOverrideOp_lookupWires (firesFreq b) s
    · exact dutyTermOp_lookupWires (firesDutyBit b) .ovrDutyEq s
    · exact dutyTermOp_lookupWires (firesDutyEq b) .ovrFreq s

end Sys2Proof.Machine
end

section
/-! The check of R80 and R149 as propositions (spec/42_mode_lut.md R149), condition by condition, and what an admitted
table answers (R151). -/

namespace Sys2Proof.Machine

@[simp] theorem mem_modeAll (m : Mode) : m ∈ Mode.all := by cases m <;> decide

theorem namesMode_iff (p : Params) (c : Nibble) : p.namesMode c = true ↔ ∃ m : Mode, p.modeCode m = c := by
  simp [Params.namesMode]

/-- R80. -/
theorem codesOk_iff (p : Params) : p.codesOk = true ↔
    (∀ m n : Mode, p.modeCode m = p.modeCode n → m = n) ∧ ∀ m : Mode, p.modeCode m ≠ 0xA := by
  have hnodup : Mode.all.Nodup := by decide
  have hinj : (Mode.all.map p.modeCode).Nodup ↔ ∀ m n : Mode, p.modeCode m = p.modeCode n → m = n := by
    rw [List.nodup_map_iff_inj_on hnodup]
    simp
  simp only [Params.codesOk, Bool.and_eq_true, decide_eq_true_eq, hinj, Bool.not_eq_true', ← Bool.not_eq_true,
    namesMode_iff, not_exists, ne_eq]

/-- A condition on the numbers below 8 as one on the unit indices. -/
theorem forall_lt_eight_iff (P : UnitIndex → Prop) :
    (∀ j < 8, P (BitVec.ofNat 3 j)) ↔ ∀ u : UnitIndex, P u := by
  refine ⟨fun h u => ?_, fun h j _ => h _⟩
  have hu := h u.toNat u.isLt
  rwa [BitVec.ofNat_toNat, BitVec.setWidth_eq] at hu

/-- A condition on the numbers below 16 as one on the codes. -/
theorem forall_lt_sixteen_iff (P : Nibble → Prop) :
    (∀ c < 16, P (BitVec.ofNat 4 c)) ↔ ∀ c : Nibble, P c := by
  refine ⟨fun h c => ?_, fun h j _ => h _⟩
  have hc := h c.toNat c.isLt
  rwa [BitVec.ofNat_toNat, BitVec.setWidth_eq] at hc

/-- The length of a row (R149(a)). -/
theorem rowHasLength_iff (p : Params) (c : Nibble) (l : Nat) : p.rowHasLength c l = true ↔
    1 ≤ l ∧ l ≤ 8 ∧ ∀ u : UnitIndex, lutPresent (p.slot c u) = true ↔ u.toNat < l := by
  rw [← forall_lt_eight_iff]
  simp only [Params.rowHasLength, Bool.and_eq_true, decide_eq_true_eq, List.all_eq_true, List.mem_range, beq_iff_eq,
    and_assoc]
  refine and_congr_right fun _ => and_congr_right fun _ => forall₂_congr fun j hj => ?_
  rw [BitVec.toNat_ofNat, Nat.mod_eq_of_lt hj, Bool.eq_iff_iff, decide_eq_true_iff]

/-- R149(a). -/
theorem rowsOk_iff (p : Params) : p.rowsOk = true ↔
    ∀ m : Mode, ∃ l : Nat, 1 ≤ l ∧ l ≤ 8 ∧
      ∀ u : UnitIndex, lutPresent (p.slot (p.modeCode m) u) = true ↔ u.toNat < l := by
  simp only [Params.rowsOk, List.all_eq_true, List.any_eq_true, List.mem_range, mem_modeAll, forall_const, rowHasLength_iff]
  refine forall_congr' fun m => exists_congr fun l => ?_
  exact ⟨fun ⟨_, h⟩ => h, fun h => ⟨Nat.lt_succ_of_le h.2.1, h⟩⟩

/-- R149(b). -/
theorem invalidRowsAbsent_iff (p : Params) : p.invalidRowsAbsent = true ↔
    ∀ c : Nibble, (∀ m : Mode, p.modeCode m ≠ c) → ∀ u : UnitIndex, lutPresent (p.slot c u) = false := by
  rw [← forall_lt_sixteen_iff]
  simp only [← forall_lt_eight_iff fun u => lutPresent (p.slot _ u) = false]
  simp only [Params.invalidRowsAbsent, List.all_eq_true, List.mem_range, Bool.or_eq_true, namesMode_iff,
    Bool.not_eq_true', ne_eq, ← not_exists, or_iff_not_imp_left]

/-- R149(c) and (d) for one word. -/
theorem wordOk_iff (w : LutWord) : Params.wordOk w = true ↔
    (lutPresent w = true → 1 ≤ (lutScale w).toNat) ∧
    (lutPresent w = false → lutUnitId w = 0 ∧ lutScale w = 0) := by
  cases h : lutPresent w <;> simp [Params.wordOk, h]

/-- R149(c) and (d). -/
theorem wordsOk_iff (p : Params) : p.lutInit.toList.all Params.wordOk = true ↔
    (∀ a : Fin 128, lutPresent p.lutInit[a] = true → 1 ≤ (lutScale p.lutInit[a]).toNat) ∧
    ∀ a : Fin 128, lutPresent p.lutInit[a] = false → lutUnitId p.lutInit[a] = 0 ∧ lutScale p.lutInit[a] = 0 := by
  have hwords : p.lutInit.toList.all Params.wordOk = true ↔ ∀ a : Fin 128, Params.wordOk p.lutInit[a] = true := by
    rw [List.all_eq_true]
    constructor
    · intro h a
      exact h _ (by simp)
    · intro h w hw
      obtain ⟨i, hi, rfl⟩ := Vector.getElem_of_mem (Vector.mem_toList_iff.1 hw)
      exact h ⟨i, hi⟩
  simp only [hwords, wordOk_iff, forall_and]

/-- R149(e). -/
theorem emptyUnitOnce_iff (p : Params) : p.emptyUnitOnce = true ↔
    (∀ a : Fin 128, lutPresent p.lutInit[a] = true →
      (lutUnitId p.lutInit[a] = 0 ↔ a.val = p.emptyUnitSlot.toNat) ∧
      (lutUnitId p.lutInit[a] ≠ 0 → p.unitString (lutUnitId p.lutInit[a]) ≠ "")) ∧
    ∀ a : Fin 128, a.val = p.emptyUnitSlot.toNat → lutPresent p.lutInit[a] = true := by
  simp only [Params.emptyUnitOnce, List.all_eq_true, List.mem_finRange, forall_const, ← forall_and]
  refine forall_congr' fun a => ?_
  by_cases hslot : a.val = p.emptyUnitSlot.toNat
  · cases lutPresent p.lutInit[a] with
    | false => simp [hslot]
    | true => simp +contextual [hslot]
  · cases lutPresent p.lutInit[a] with
    | false => simp [hslot]
    | true => simp +contextual [hslot]

/-- R149(f) and (g). -/
theorem fixedScales_iff (p : Params) : p.fixedScales = true ↔
    lutScale (p.slot 0xB 4) = 100 ∧ lutScale (p.slot 0x6 0) = 1000 := by
  simp only [Params.fixedScales, Bool.and_eq_true, beq_iff_eq]

/-- The check is the conditions of R80 and R149. -/
theorem admitted_iff (p : Params) : p.admitted = true ↔ p.MeetsConditions := by
  simp only [Params.admitted, Bool.and_eq_true, codesOk_iff, rowsOk_iff, invalidRowsAbsent_iff, wordsOk_iff,
    emptyUnitOnce_iff, fixedScales_iff, Params.MeetsConditions, and_assoc]

/-- Settles O21: `boot` runs the check, which is the conditions. -/
theorem bootRefusesTablesThatFailTheConditions : Obligations.BootRefusesTablesThatFailTheConditions := by
  unfold Obligations.BootRefusesTablesThatFailTheConditions
  intro p
  rw [← admitted_iff]
  exact ⟨fun h => ⟨if_pos h, rfl, rfl⟩, fun h => if_neg h⟩

/-- Under admitted parameters the slots of a code are those below the length of its mode's row (R149(a), (b)). -/
theorem slot_present_iff {p : Params} (hp : p.admitted = true) (c : Nibble) (u : UnitIndex) :
    lutPresent (p.slot c u) = true ↔
      ∃ (m : Mode) (l : Nat), p.modeCode m = c ∧ p.rowHasLength c l = true ∧ u.toNat < l := by
  obtain ⟨-, -, hrows, hinvalid, -⟩ := (admitted_iff p).1 hp
  constructor
  · intro hpres
    obtain ⟨m, hm⟩ : ∃ m : Mode, p.modeCode m = c := by
      by_contra hnone
      have habsent := hinvalid c (not_exists.1 hnone) u
      exact Bool.false_ne_true (habsent.symm.trans hpres)
    obtain ⟨l, hlen⟩ := hrows m
    rw [hm] at hlen
    exact ⟨m, l, hm, (rowHasLength_iff p c l).2 hlen, (hlen.2.2 u).1 hpres⟩
  · rintro ⟨m, l, -, hlen, hlt⟩
    obtain ⟨-, -, hslots⟩ := (rowHasLength_iff p c l).1 hlen
    exact (hslots u).2 hlt

/-- Settles O20: the loaded table has the slots of `LUT_INIT`, and a miss is the last cause of R233. -/
theorem lookupHitsExactlyDefinedSlots : Obligations.LookupHitsExactlyDefinedSlots := by
  unfold Obligations.LookupHitsExactlyDefinedSlots
  constructor
  · intro p c u hp
    rw [lutRead_slot]
    exact slot_present_iff hp c u
  · intro s f hpar hmiss
    have hstatus : decodeStatus s.params 14 f s.table = .unknownModeOrUnit :=
      (completeOp_status_of_parAll s hpar).trans (by rw [hmiss]; rfl)
    obtain ⟨hmeas, -, hhit⟩ := decodeFrame_unknownModeOrUnit hstatus
    exact ⟨_, exec_decode 14 f s, hstatus, hmeas, hhit⟩

/-- Under admitted parameters the slot CAPACITANCE 0 is the first of its row (R149(a)). -/
theorem capacitance0_present {p : Params} (hp : p.admitted = true) : lutPresent (p.slot 0x6 0) = true := by
  obtain ⟨-, -, hrows, -⟩ := (admitted_iff p).1 hp
  obtain ⟨l, hpos, -, hslots⟩ := hrows .capacitance
  exact (hslots 0).2 hpos

/-- Under admitted parameters the code 0xA has no slot (R80, R149(b)). -/
theorem invalidA_absent {p : Params} (hp : p.admitted = true) (u : UnitIndex) : lutPresent (p.slot 0xA u) = false := by
  obtain ⟨-, hA, -, hinvalid, -⟩ := (admitted_iff p).1 hp
  exact hinvalid 0xA hA u

/-- On the table `LUT_INIT` a lookup drives the hit and the scale of its slot (R32, R150). -/
theorem lookupOp_hit_scale {s : State} (htable : tableIsLutInit s) (c : Nibble) (u : UnitIndex) :
    (lookupOp c u s).wires.lutHit = lutPresent (s.params.slot c u) ∧
      (lookupOp c u s).wires.scale = lutScale (s.params.slot c u) := by
  rw [← lutRead_slot, ← htable]
  exact ⟨rfl, rfl⟩

/-- Settles O23: the two slots R149 fixes, and the code R80 leaves without a mode. -/
theorem fixedTableEntries : Obligations.FixedTableEntries := by
  unfold Obligations.FixedTableEntries
  intro s hadm htable
  obtain ⟨hvoltage, hcapacitance⟩ := (fixedScales_iff s.params).1 (Bool.and_eq_true_iff.1 hadm).2
  refine ⟨⟨lookupOp 0xB 4 s, rfl, ?_⟩, ⟨lookupOp 0x6 0 s, rfl, ?_⟩, fun u => ⟨lookupOp 0xA u s, rfl, ?_⟩⟩
  · obtain ⟨hhit, hscale⟩ := lookupOp_hit_scale htable 0xB 4
    exact ⟨hhit.trans (voltage4_present hadm), hscale.trans hvoltage⟩
  · obtain ⟨hhit, hscale⟩ := lookupOp_hit_scale htable 0x6 0
    exact ⟨hhit.trans (capacitance0_present hadm), hscale.trans hcapacitance⟩
  · exact (lookupOp_hit_scale htable 0xA u).1.trans (invalidA_absent hadm u)

end Sys2Proof.Machine
end

section
/-! The wires at the completion (spec/42_mode_lut.md R141, R150, R152; log entry 1). -/

namespace Sys2Proof.Machine

/-- Where all selectors of a good length have run, the invariant gives every wire its final value. -/
theorem wires_of_stage_complete {s : State} (hinv : Inv s) (hbusy : s.busy = true) (hstage : s.stage = .complete)
    (hlen : s.capLen = 14) :
    s.wires.dutyCond = dutyCond (extInfo (maskFrame s.capByte)) ∧
      s.wires.modeRes = resolvedMode s.params (maskFrame s.capByte) ∧
      s.wires.lutHit = lutPresent (frameWord s.params (maskFrame s.capByte) s.table) ∧
      s.wires.unitId = lutUnitId (frameWord s.params (maskFrame s.capByte) s.table) ∧
      s.wires.scale = lutScale (frameWord s.params (maskFrame s.capByte) s.table) := by
  obtain ⟨-, -, -, hwires⟩ := hinv
  have hagree := hwires hbusy
  rw [hlen, if_pos (show lenOk 14 = true from rfl), hstage] at hagree
  exact hagree

/-- Settles O49: both sides are the same functions of the captured frame. -/
theorem pipelineWiresAgreeWithTheResult : Obligations.PipelineWiresAgreeWithTheResult := by
  unfold Obligations.PipelineWiresAgreeWithTheResult
  intro s hinv hrst hbusy hcount hstage hlen
  obtain ⟨hduty, hmode, hhit, hunit, hscale⟩ := wires_of_stage_complete hinv hbusy hstage hlen
  refine ⟨_, step_of_countdown_zero hrst hbusy hcount, ?_⟩
  rw [hlen, completeOp_diag]
  refine ⟨by simp [hmode], by simp [hduty], by simp [hhit], fun hok => ?_⟩
  rw [completeOp_meas_of_ok hok]
  simp [hmode, hunit, hscale, hduty]

end Sys2Proof.Machine
end

section
/-! The fixed-point scalar of an OK decode (spec/43_scalar.md R170 to R174). -/

namespace Sys2Proof.Machine

@[simp] theorem measurementOf_magnitude (p : Params) (f : Frame) (t : Memory) :
    (measurementOf p f t).magnitude = magnitude (extDigits (maskFrame f)) := rfl

@[simp] theorem measurementOf_negative (p : Params) (f : Frame) (t : Memory) :
    (measurementOf p f t).negative = flagNegative (maskFrame f) := rfl

/-- A DECODE of good length and parity that hits the table reports the measurement group (R192). -/
theorem completeOp_meas_of_hit {f : Frame} {s : State} (hpar : parAll f = true)
    (hhit : lutPresent (frameWord s.params (maskFrame f) s.table) = true) :
    (completeOp 14 f s).res.meas = measurementOf s.params f s.table :=
  completeOp_meas_of_ok (by rw [completeOp_status_of_parAll s hpar, if_pos hhit])

/-- Five digits of at most 15 each (R171, R172). -/
theorem magnitudeNat_le (d : Vector Nibble 5) : magnitudeNat d ≤ 166665 := by
  rw [magnitudeNat]
  omega

/-- The 18 bits hold the weighted sum without loss (R171). -/
theorem magnitude_toNat (d : Vector Nibble 5) : (magnitude d).toNat = magnitudeNat d := by
  have hle := magnitudeNat_le d
  rw [magnitude, BitVec.toNat_ofNat, Nat.mod_eq_of_lt (by omega)]

/-- Settles O24: the digits are the low nibbles of the bytes 1 to 5, and 18 bits hold their sum. -/
theorem magnitudeIsTheWeightedDigitSum : Obligations.MagnitudeIsTheWeightedDigitSum := by
  unfold Obligations.MagnitudeIsTheWeightedDigitSum
  intro s f hpar hhit
  refine ⟨_, exec_decode 14 f s, ?_⟩
  rw [completeOp_meas_of_hit hpar hhit, measurementOf_magnitude, magnitude_toNat]
  exact ⟨by simp only [magnitudeNat, extDigits_toNat, Nat.reduceAdd], magnitudeNat_le _⟩

/-- Under admitted parameters the divisor of a present slot is at least 1 (R149(c)). -/
theorem slot_scale_pos {p : Params} (hp : p.admitted = true) (c : Nibble) (u : UnitIndex)
    (hpres : lutPresent (p.slot c u) = true) : 1 ≤ (lutScale (p.slot c u)).toNat := by
  obtain ⟨-, -, -, -, hscale, -⟩ := (admitted_iff p).1 hp
  exact hscale (lutAddress c u).toFin hpres

/-- On the table `LUT_INIT` the word a frame reads is the slot of its mode and unit index (R32, R150). -/
theorem frameWord_of_tableIsLutInit {s : State} (htable : tableIsLutInit s) (r : RawFrame) :
    frameWord s.params r s.table = s.params.slot (resolvedMode s.params r) (extUnitIndex r) := by
  rw [frameWord, htable, lutRead_slot]

/-- The exact value is the quotient of the signed magnitude by a divisor that is not 0 (R173, R174). -/
theorem exactValue_mul_scale (negative : Bool) (mag : BitVec 18) {scale : BitVec 16} (hscale : 1 ≤ scale.toNat) :
    exactValue negative mag scale * (scale.toNat : ℚ) =
      if negative then -(mag.toNat : ℚ) else (mag.toNat : ℚ) := by
  have hne : (scale.toNat : ℚ) ≠ 0 := Nat.cast_ne_zero.2 (Nat.one_le_iff_ne_zero.1 hscale)
  rw [exactValue, div_mul_cancel₀ _ hne, ite_mul, neg_one_mul, one_mul]

/-- The sign of a captured frame is `info[2]` (R173). -/
theorem flagNegative_maskFrame (f : Frame) : flagNegative (maskFrame f) = f[7].getLsbD 2 := extInfo_bit f 2

/-- Settles O25: the scale is that of a present slot of an admitted table, so it divides. -/
theorem exactValueTimesScaleIsSignedMagnitude : Obligations.ExactValueTimesScaleIsSignedMagnitude := by
  unfold Obligations.ExactValueTimesScaleIsSignedMagnitude
  intro s f hadm htable hpar hhit
  refine ⟨_, exec_decode 14 f s, ?_⟩
  rw [completeOp_meas_of_hit hpar hhit, measurementOf_negative, flagNegative_maskFrame]
  have hscale : 1 ≤ (measurementOf s.params f s.table).scale.toNat := by
    rw [frameWord_of_tableIsLutInit htable] at hhit
    rw [measurementOf_scale, frameWord_of_tableIsLutInit htable]
    exact slot_scale_pos hadm _ _ hhit
  exact ⟨hscale, exactValue_mul_scale _ _ hscale⟩

end Sys2Proof.Machine
end

section
/-! The derived floating-point value (spec/43_scalar.md R175, R176) and the default format binary64 (log entry 10):
the fields of a value by its magnitude bits, the conversion of an integer, and the division of zero. -/

namespace Sys2Proof.Machine

theorem binary64Sign_of (sign : Bool) (bits : Nat) : binary64Sign (binary64Of sign bits) = sign := by
  rw [binary64Sign, binary64Of, BitVec.getLsbD_append]
  simp

theorem binary64Frac_of (sign : Bool) (bits : Nat) : binary64Frac (binary64Of sign bits) = bits % 2 ^ 52 := by
  rw [binary64Frac, binary64Of, BitVec.extractLsb'_append_eq_of_add_le (by decide), BitVec.extractLsb'_toNat,
    BitVec.toNat_ofNat, Nat.shiftRight_zero, Nat.mod_mod_of_dvd _ (by decide)]

/-- The exponent field is what stands above the 52 bits of the fraction. -/
theorem binary64Exp_of (sign : Bool) {bits : Nat} (h : bits < 2 ^ 63) :
    binary64Exp (binary64Of sign bits) = bits / 2 ^ 52 := by
  rw [binary64Exp, binary64Of, BitVec.extractLsb'_append_eq_of_add_le (by decide), BitVec.extractLsb'_toNat,
    BitVec.toNat_ofNat, Nat.mod_eq_of_lt h, Nat.shiftRight_eq_div_pow, Nat.mod_eq_of_lt (by omega)]

/-- Over the denominator 1 nothing is rounded. -/
theorem roundHalfEven_one (n : Nat) : roundHalfEven n 1 = n := by
  simp [roundHalfEven, Nat.mod_one]

/-- The significand of an integer, `2 ^ 52` to `2 ^ 53`: its leading bit stands above the fraction. -/
theorem significand_bounds {n : Nat} (hpos : n ≠ 0) (h : n < 2 ^ 53) :
    n.log2 ≤ 52 ∧ 2 ^ 52 ≤ n * 2 ^ (52 - n.log2) ∧ n * 2 ^ (52 - n.log2) < 2 ^ 53 := by
  have hlog : n.log2 < 53 := (Nat.log2_lt hpos).2 h
  have hlow : 2 ^ n.log2 ≤ n := Nat.log2_self_le hpos
  have hhigh : n < 2 ^ (n.log2 + 1) := Nat.lt_log2_self
  have hscale : 0 < 2 ^ (52 - n.log2) := Nat.two_pow_pos _
  refine ⟨Nat.le_of_lt_succ hlog, ?_, ?_⟩
  · calc 2 ^ 52 = 2 ^ n.log2 * 2 ^ (52 - n.log2) := by rw [← pow_add, Nat.add_sub_cancel' (by omega)]
      _ ≤ n * 2 ^ (52 - n.log2) := Nat.mul_le_mul_right _ hlow
  · calc n * 2 ^ (52 - n.log2) < 2 ^ (n.log2 + 1) * 2 ^ (52 - n.log2) := Nat.mul_lt_mul_of_pos_right hhigh hscale
      _ = 2 ^ 53 := by rw [← pow_add]; congr 1; omega

/-- An integer below 2^53 is rounded to itself: its exponent is `log2` and its significand is exact. -/
theorem binary64Round_of_lt {n : Nat} (hpos : n ≠ 0) (h : n < 2 ^ 53) :
    binary64Round n 1 = (n.log2 + 1022) * 2 ^ 52 + n * 2 ^ (52 - n.log2) := by
  obtain ⟨hlog, -, hhigh⟩ := significand_bounds hpos h
  have hpow : pow2Le (n.log2 : Int) n 1 = true := by
    have hneg : (-(n.log2 : Int)).toNat = 0 := by omega
    rw [pow2Le, decide_eq_true_eq, Int.toNat_natCast, hneg, Nat.mul_one, pow_zero, Nat.mul_one]
    exact Nat.log2_self_le hpos
  have hnormal : ¬(n.log2 : Int) < -1022 := by omega
  have hup : (52 - (n.log2 : Int)).toNat = 52 - n.log2 := by omega
  have hdown : ((n.log2 : Int) - 52).toNat = 0 := by omega
  have hexp : ((n.log2 : Int) + 1022).toNat = n.log2 + 1022 := by omega
  have hone : Nat.log2 1 = 0 := by decide
  simp only [binary64Round, hone, Int.natCast_zero, Int.sub_zero, hpow, if_true, if_neg hnormal, hup, hdown, hexp,
    pow_zero, Nat.mul_one, roundHalfEven_one]
  exact if_neg (by omega)

/-- The fields of a nonzero integer below 2^53 in binary64. -/
theorem binary64OfNat_fields {n : Nat} (hpos : n ≠ 0) (h : n < 2 ^ 53) :
    binary64Sign (binary64OfNat n) = false ∧ binary64Exp (binary64OfNat n) = n.log2 + 1023 ∧
      2 ^ 52 + binary64Frac (binary64OfNat n) = n * 2 ^ (52 - n.log2) := by
  obtain ⟨hlog, hlow, hhigh⟩ := significand_bounds hpos h
  rw [binary64OfNat, if_neg hpos, binary64Round_of_lt hpos h, binary64Exp_of _ (by omega), binary64Frac_of]
  exact ⟨binary64Sign_of _ _, by omega, by omega⟩

/-- The units 2^-1074 of a nonzero integer: exponent and significand give it back. -/
theorem binary64Units_ofNat {n : Nat} (hpos : n ≠ 0) (h : n < 2 ^ 53) :
    binary64Units (binary64OfNat n) = n * 2 ^ 1074 := by
  obtain ⟨hlog, -, -⟩ := significand_bounds hpos h
  obtain ⟨-, hexp, hfrac⟩ := binary64OfNat_fields hpos h
  have hsplit : 52 - n.log2 + (n.log2 + 1022) = 1074 := by omega
  rw [binary64Units, hexp, if_neg (by omega), hfrac, Nat.mul_assoc, Nat.add_sub_assoc (by decide), ← pow_add, hsplit]

/-- A value whose exponent field is not all ones is finite. -/
theorem binary64_finite_of_exp_lt {b : BitVec 64} (h : binary64Exp b < 0x7FF) :
    binary64IsNan b = false ∧ binary64IsInf b = false := by
  have hexp : (binary64Exp b == 0x7FF) = false := beq_false_of_ne h.ne
  rw [binary64IsNan, binary64IsInf, hexp, Bool.false_and, Bool.false_and]
  exact ⟨rfl, rfl⟩

/-- Settles O27: the fields of a nonzero integer; zero is evaluated. -/
theorem integersConvertExactlyToBinary64 : Obligations.IntegersConvertExactlyToBinary64 := by
  unfold Obligations.IntegersConvertExactlyToBinary64
  intro n h
  rcases eq_or_ne n 0 with rfl | hpos
  · rw [binary64OfNat_zero, Nat.zero_mul]
    decide
  · obtain ⟨hlog, -, -⟩ := significand_bounds hpos h
    obtain ⟨hsign, hexp, -⟩ := binary64OfNat_fields hpos h
    obtain ⟨hnan, hinf⟩ := binary64_finite_of_exp_lt (hexp.trans_lt (by omega))
    exact ⟨hsign, hnan, hinf, binary64Units_ofNat hpos h⟩

theorem binary64IsZero_of_exp_ne {b : BitVec 64} (h : binary64Exp b ≠ 0) : binary64IsZero b = false := by
  rw [binary64IsZero, beq_false_of_ne h, Bool.false_and]

/-- Zero divided by a nonzero finite value is a zero with the sign of the divisor. -/
theorem binary64Div_zero_left {b : BitVec 64} (hnan : binary64IsNan b = false) (hinf : binary64IsInf b = false)
    (hzero : binary64IsZero b = false) : binary64Div 0#64 b = binary64Of (binary64Sign b) 0 := by
  obtain ⟨hsign0, hnan0, hinf0, hzero0⟩ : binary64Sign 0#64 = false ∧ binary64IsNan 0#64 = false ∧
      binary64IsInf 0#64 = false ∧ binary64IsZero 0#64 = true := by decide
  simp [binary64Div, hsign0, hnan0, hinf0, hzero0, hnan, hinf, hzero]

/-- Zero divided by a positive integer below 2^53 is +0.0. -/
theorem binary64Div_zero_ofNat {n : Nat} (hpos : n ≠ 0) (h : n < 2 ^ 53) :
    binary64Div 0#64 (binary64OfNat n) = 0#64 := by
  obtain ⟨hsign, hnan, hinf, -⟩ := integersConvertExactlyToBinary64 n h
  obtain ⟨-, hexp, -⟩ := binary64OfNat_fields hpos h
  rw [binary64Div_zero_left hnan hinf (binary64IsZero_of_exp_ne (by omega)), hsign]
  decide

/-- Settles O28: the quotient is +0.0, and the negation sets its sign bit. -/
theorem negativeZeroKeepsItsSign : Obligations.NegativeZeroKeepsItsSign := by
  unfold Obligations.NegativeZeroKeepsItsSign
  intro m hmag hscale
  have hquot : binary64Div (binary64OfNat m.magnitude.toNat) (binary64OfNat m.scale.toNat) = 0#64 := by
    rw [hmag, show (0 : BitVec 18).toNat = 0 from rfl, binary64OfNat_zero]
    exact binary64Div_zero_ofNat (by omega) (by omega)
  rw [fpValue_binary64, hquot]
  exact ⟨fun hneg => (if_pos hneg).trans (BitVec.zero_xor (x := 0x8000000000000000#64)),
    fun hneg => by rw [hneg]; rfl⟩

/-- Settles O26: the two branches on the sign (R175). -/
theorem fpValueDividesThenNegates : Obligations.FpValueDividesThenNegates := by
  unfold Obligations.FpValueDividesThenNegates
  intro F m
  exact ⟨fun hneg => if_pos hneg, fun hneg => by rw [fpValue, hneg]; rfl⟩

end Sys2Proof.Machine
end

section
/-! The result multiplexer (spec/44_result_mux.md R191 to R199): the gates, what an OK decode implies, and its
measurement. -/

namespace Sys2Proof.Machine

/-- The length alone decides INVALID_LENGTH (R191, R233). -/
theorem decodeStatus_eq_invalidLength_iff (p : Params) (len : Len) (f : Frame) (t : Memory) :
    decodeStatus p len f t = .invalidLength ↔ len.toNat ≠ 14 := by
  rw [decodeStatus_eq]
  split_ifs with hlen
  · exact iff_of_true rfl hlen
  all_goals exact iff_of_false nofun hlen

/-- At a bad length the result is INVALID_LENGTH and zeros, the same for all bytes (R191). -/
theorem decodeFrame_of_bad_length {len : Len} (hlen : len.toNat ≠ 14) (p : Params) (f : Frame) (t : Memory) :
    decodeFrame p len f t = { status := .invalidLength, meas := Measurement.zero, diag := Diagnostic.zero } := by
  rw [decodeFrame, (decodeStatus_eq_invalidLength_iff p len f t).2 hlen]
  rfl

/-- Settles O4: at a bad length what COMPLETE writes does not name the frame. -/
theorem otherLengthsAreInvalidLength : Obligations.OtherLengthsAreInvalidLength := by
  unfold Obligations.OtherLengthsAreInvalidLength
  intro s len f hlen
  refine ⟨_, exec_decode len f s, ?_⟩
  rw [completeOp_res, decodeFrame_of_bad_length hlen]
  refine ⟨rfl, rfl, rfl, fun g => ?_⟩
  rw [exec_decode, completeOp, completeOp, decodeFrame_of_bad_length hlen, decodeFrame_of_bad_length hlen]

/-- Every status but OK closes the measurement gate (R192). -/
theorem gateMeasurement_of_ne_ok {st : Status} (h : st ≠ .ok) (m : Measurement) :
    gateMeasurement st m = Measurement.zero := by
  cases st with
  | ok => exact absurd rfl h
  | invalidLength => rfl
  | parityMismatch => rfl
  | unknownModeOrUnit => rfl

/-- Settles O30: the measurement gate by the status, the diagnostic gate by the length. -/
theorem gatesFollowTheStatus : Obligations.GatesFollowTheStatus := by
  unfold Obligations.GatesFollowTheStatus
  intro s len f
  refine ⟨_, exec_decode len f s, completeOp_meas_of_ok, fun hne => gateMeasurement_of_ne_ok hne _, fun hne => ?_,
    fun hst => (decodeFrame_invalidLength hst).2⟩
  have hlen := mt (decodeStatus_eq_invalidLength_iff s.params len f s.table).2 hne
  exact decodeFrame_diag (not_not.1 hlen)

/-- The table word of a frame stands at mode * 8 + unit index (R150). -/
theorem frameWord_maskFrame (p : Params) (f : Frame) (t : Memory) : frameWord p (maskFrame f) t =
    Memory.read t ((resolvedMode p (maskFrame f)).toNat * 8 + f[0].toNat % 8) := by
  rw [frameWord, lutRead_lutAddress, extUnitIndex_toNat]

/-- The predicates of a measurement, each its bit of the captured frame (R194). -/
theorem measurementOf_flags (p : Params) (f : Frame) (t : Memory) :
    (measurementOf p f t).negative = f[7].getLsbD 2 ∧ (measurementOf p f t).overload = f[7].getLsbD 0 ∧
      (measurementOf p f t).underload = f[9].getLsbD 3 ∧ (measurementOf p f t).freq = f[10].getLsbD 0 ∧
      (measurementOf p f t).duty = f[7].getLsbD 3 ∧ (measurementOf p f t).dc = f[10].getLsbD 3 ∧
      (measurementOf p f t).ac = f[10].getLsbD 2 :=
  ⟨flagNegative_maskFrame f, extInfo_bit f 0, extUnderload_maskFrame f, flagFreq_maskFrame f, dutyCond_maskFrame f,
    extType_bit f 3, extType_bit f 2⟩

/-- Settles O31: the measurement group of a hit, its word at the resolved mode and its flags bit by bit. -/
theorem measurementOfAGoodFrame : Obligations.MeasurementOfAGoodFrame := by
  unfold Obligations.MeasurementOfAGoodFrame
  intro s f hpar hhit
  refine ⟨_, exec_decode 14 f s, by rw [completeOp_status_of_parAll s hpar, if_pos hhit], ?_⟩
  rw [completeOp_meas_of_hit hpar hhit, completeOp_diag, measurementOf_mode, measurementOf_unitId, measurementOf_scale,
    lutUnitId_toNat, lutScale_toNat, frameWord_maskFrame]
  obtain ⟨hneg, hover, hunder, hfreq, hduty, hdc, hac⟩ := measurementOf_flags s.params f s.table
  refine ⟨rfl, rfl, rfl, hneg, hover, hunder, hfreq, hduty, hdc, hac, fun hset => ?_⟩
  rw [resolvedMode_maskFrame, if_pos hset]

/-- The table word depends on the override flags and on the bytes of the mode and the unit index (R140, R150). -/
theorem frameWord_congr {f g : Frame} (hunit : f[0] = g[0]) (hmode : f[6] = g[6])
    (hduty : f[7].getLsbD 3 = g[7].getLsbD 3) (hfreq : f[10].getLsbD 0 = g[10].getLsbD 0) (p : Params) (t : Memory) :
    frameWord p (maskFrame f) t = frameWord p (maskFrame g) t := by
  have hbase : extMode (maskFrame f) = extMode (maskFrame g) :=
    lowNibble_maskFrame_eq 6 _ (by rw [hmode])
  rw [frameWord_maskFrame, frameWord_maskFrame, resolvedMode_maskFrame, resolvedMode_maskFrame, dutyCond_maskFrame,
    dutyCond_maskFrame, hunit, hduty, hfreq, hbase]

/-- The digits depend on the bytes 1 to 5 (R125). -/
theorem extDigits_congr {f g : Frame} (h : ∀ k : Fin 5, f[k.val + 1] = g[k.val + 1]) :
    extDigits (maskFrame f) = extDigits (maskFrame g) := by
  ext1 k hk
  exact BitVec.eq_of_toNat_eq (by rw [extDigits_toNat f k hk, extDigits_toNat g k hk, h ⟨k, hk⟩])

/-- The duty bit is among the bits 6 to 2 of a byte. -/
theorem dutyBit_congr {a b : Byte} (h : a.toNat % 128 / 4 = b.toNat % 128 / 4) : a.getLsbD 3 = b.getLsbD 3 := by
  have hbit : ∀ c : Byte, c.getLsbD 3 = decide (c.toNat % 128 / 4 / 2 % 2 = 1) := by decide
  rw [hbit, hbit, h]

/-- The gate keeps the magnitude or drives it to 0, by the status alone (R192). -/
theorem gateMeasurement_magnitude_congr {m n : Measurement} (h : m.magnitude = n.magnitude) (st : Status) :
    (gateMeasurement st m).magnitude = (gateMeasurement st n).magnitude := by
  cases st with
  | ok => exact h
  | invalidLength => rfl
  | parityMismatch => rfl
  | unknownModeOrUnit => rfl

/-- Settles O32: the frames read the same table word and have the same digits. -/
theorem rangeFlagsAreNoErrors : Obligations.RangeFlagsAreNoErrors := by
  unfold Obligations.RangeFlagsAreNoErrors
  intro s f g hparf hparg hbytes hinfo hfreq
  have hword : frameWord s.params (maskFrame f) s.table = frameWord s.params (maskFrame g) s.table :=
    frameWord_congr (hbytes 0 (by decide) (by decide) (by decide)) (hbytes 6 (by decide) (by decide) (by decide))
      (dutyBit_congr hinfo) hfreq _ _
  have hdigits : extDigits (maskFrame f) = extDigits (maskFrame g) := extDigits_congr fun k =>
    hbytes ⟨k.val + 1, by omega⟩ (by simp only; omega) (by simp only; omega) (by simp only; omega)
  have hstatus : decodeStatus s.params 14 f s.table = decodeStatus s.params 14 g s.table := by
    rw [decodeStatus, decodeStatus, hparf, hparg, hword]
  refine ⟨_, _, exec_decode 14 f s, exec_decode 14 g s, hstatus, ?_⟩
  rw [completeOp_res, completeOp_res, decodeFrame, decodeFrame, hstatus]
  exact gateMeasurement_magnitude_congr (by rw [measurementOf_magnitude, measurementOf_magnitude, hdigits]) _

/-- The status is OK only on a hit (R151, R233). -/
theorem lutPresent_of_decodeStatus_ok {p : Params} {len : Len} {f : Frame} {t : Memory}
    (h : decodeStatus p len f t = .ok) : lutPresent (frameWord p (maskFrame f) t) = true := by
  rw [decodeStatus_eq] at h
  split_ifs at h with _ _ hmiss
  exact Bool.eq_true_of_not_eq_false hmiss

/-- On the table `LUT_INIT` an OK decode reports a present slot, at its mode and unit index (R32, R150). -/
theorem decode_slot_of_ok {s t : State} {len : Len} {f : Frame} (htable : tableIsLutInit s)
    (hexec : exec (.decode len f) s = .next t) (hok : t.res.status = .ok) :
    lutPresent (s.params.slot t.res.meas.mode t.res.diag.unitIndex) = true ∧
      t.res.meas.unitId = lutUnitId (s.params.slot t.res.meas.mode t.res.diag.unitIndex) ∧
      t.res.meas.scale = lutScale (s.params.slot t.res.meas.mode t.res.diag.unitIndex) := by
  cases hexec
  have hhit := lutPresent_of_decodeStatus_ok hok
  obtain ⟨hmeas, hdiag⟩ := decodeFrame_ok hok
  have hslot := frameWord_of_tableIsLutInit htable (maskFrame f)
  rw [completeOp_res, hmeas, hdiag, measurementOf_unitId, measurementOf_scale, hslot]
  exact ⟨hslot ▸ hhit, rfl, rfl⟩

/-- Settles O33: the slot read is present, so its row has a mode and its scale is not 0. -/
theorem okDecodeIsWithinItsTable : Obligations.OkDecodeIsWithinItsTable := by
  unfold Obligations.OkDecodeIsWithinItsTable
  intro s t len f hadm htable hexec hok
  obtain ⟨hpres, -, hscale⟩ := decode_slot_of_ok htable hexec hok
  obtain ⟨m, l, hmode, hlen, hlt⟩ := (slot_present_iff hadm _ _).1 hpres
  exact ⟨⟨m, l, hmode.symm, hlen, hlt⟩, hscale ▸ slot_scale_pos hadm _ _ hpres⟩

/-- Under admitted parameters the unit of a present slot is empty exactly at `EMPTY_UNIT_SLOT` (R31, R149(e)). -/
theorem slot_unitString_eq_empty_iff {p : Params} (hp : p.admitted = true) {c : Nibble} {u : UnitIndex}
    (hpres : lutPresent (p.slot c u) = true) :
    p.unitString (lutUnitId (p.slot c u)) = "" ↔ lutAddress c u = p.emptyUnitSlot := by
  obtain ⟨-, -, -, -, -, -, hunit, -⟩ := (admitted_iff p).1 hp
  obtain ⟨hzero, hnonempty⟩ := hunit (lutAddress c u).toFin hpres
  rw [← BitVec.toNat_inj]
  exact ⟨fun hempty => hzero.1 (not_not.1 (mt hnonempty (not_not.2 hempty))), fun haddr => if_pos (hzero.2 haddr)⟩

/-- Settles O34: the slot read is present, and R149(e) speaks of its unit. -/
theorem unitIsEmptyOnlyAtItsSlot : Obligations.UnitIsEmptyOnlyAtItsSlot := by
  unfold Obligations.UnitIsEmptyOnlyAtItsSlot
  intro s t len f hadm htable hexec hok
  obtain ⟨hpres, hunit, -⟩ := decode_slot_of_ok htable hexec hok
  rw [hunit]
  exact slot_unitString_eq_empty_iff hadm hpres

/-- Settles O43: every arm of `exec` and every move of `step` answers a next state. -/
theorem blockNeverFaultsOrRefuses : Obligations.BlockNeverFaultsOrRefuses := by
  unfold Obligations.BlockNeverFaultsOrRefuses
  constructor
  · intro i s
    obtain ⟨_, _, -, h⟩ | ⟨_, _, h⟩ | ⟨_, h⟩ | ⟨_, _, h⟩ := exec_cases i s
    all_goals exact ⟨_, h⟩
  · intro s
    obtain ⟨t, hstep, -⟩ := exists_stepCase s
    exact ⟨t, hstep⟩

end Sys2Proof.Machine
end

section
/-! The host's side of the interface (spec/48_host_interface.md R210, R212; spec/70_reset_and_hazards.md R271):
overlong inputs, and how long a raised request is held. -/

namespace Sys2Proof.Machine

/-- Settles O56: the saturated length is 0xFFFF, which is a bad length. -/
theorem overlongInputIsInvalidLength : Obligations.OverlongInputIsInvalidLength := by
  unfold Obligations.OverlongInputIsInvalidLength
  intro s received f hlong
  have hsat : satLen received.length = 0xFFFF := if_neg (not_le.2 hlong)
  have hbad : (satLen received.length).toNat ≠ 14 := by rw [hsat]; decide
  obtain ⟨t, hexec, hstatus, -⟩ := otherLengthsAreInvalidLength s _ f hbad
  exact ⟨hsat, t, hexec, hstatus⟩

/-- The reset signal is no part of a request (R210, R271). -/
theorem sameRequest_iff (p q : Port) :
    sameRequest p q = true ↔ p.req = q.req ∧ p.inLen = q.inLen ∧ p.inByte = q.inByte := by
  simp [sameRequest, and_assoc]

/-- While a request waits, a host that holds it drives the other pins and still waits (R271). -/
theorem hostDrive_of_held {b : Bench} {p : Port} (hwait : b.waiting = true)
    (hheld : sameRequest p b.block.port = true) :
    hostDrive p b = .next { block := { b.block with port := p }, waiting := true } := by
  simp [hostDrive, hwait, hheld]

/-- While a request waits, a host that changes it is refused (R271, D17). -/
theorem hostDrive_of_not_held {b : Bench} {p : Port} (hwait : b.waiting = true)
    (hchanged : sameRequest p b.block.port = false) : hostDrive p b = .refused .inputsNotHeld := by
  simp [hostDrive, hwait, hchanged]

/-- A step of the bench is the block's step, and the block's ACCEPT is what ends the waiting (R210, R262). -/
theorem benchStep_of_step {b : Bench} {t : State} (h : step b.block = .next t) :
    benchStep b =
      .next { block := t, waiting := b.waiting && !(acceptEnabled b.block && !b.block.port.rst) } := by
  rw [benchStep, h, andThen_next]

/-- The step of `s` is its ACCEPT exactly under the conditions of R262 with the reset signal down. -/
theorem acceptEnabled_and_not_rst_iff (s : State) : (acceptEnabled s && !s.port.rst) = true ↔
    s.port.rst = false ∧ s.ready = true ∧ s.busy = false ∧ s.port.req = true := by
  simp only [acceptEnabled, Bool.and_eq_true, Bool.not_eq_true']
  tauto

/-- Settles O58: the pins by whether a request waits and is held, the waiting by whether the step is the ACCEPT. -/
theorem requestsAreHeldUntilAccepted : Obligations.RequestsAreHeldUntilAccepted := by
  unfold Obligations.RequestsAreHeldUntilAccepted
  refine ⟨fun b p hwait => ?_, fun b p hwait => hostDrive_of_not_waiting p hwait, fun b => ?_⟩
  · simp only [← sameRequest_iff]
    split_ifs with hheld
    · exact hostDrive_of_held hwait hheld
    · exact hostDrive_of_not_held hwait (Bool.eq_false_iff.2 hheld)
  · obtain ⟨t, hstep, -⟩ := exists_stepCase b.block
    refine ⟨_, benchStep_of_step hstep, hstep, ?_⟩
    rw [Bool.and_eq_true, Bool.not_eq_true', ← acceptEnabled_and_not_rst_iff, Bool.not_eq_true]

end Sys2Proof.Machine
end

section
/-! Priority of the status (spec/60_exceptions.md R233), and several instances under their common reset signal and at
the start (spec/60_exceptions.md R240; spec/70_reset_and_hazards.md R260; log entry 12). -/

namespace Sys2Proof.Machine

/-- Settles O29: the status is the chain of causes, and at length 14 the diagnostic group is driven whatever it is. -/
theorem statusPriority : Obligations.StatusPriority := by
  unfold Obligations.StatusPriority
  intro s len f
  refine ⟨_, exec_decode len f s, decodeStatus_eq s.params len f s.table, fun hlen => ?_⟩
  rw [completeOp_res, decodeFrame_diag hlen, diagnosticOf_lutHit]

/-- With the reset signal up at one instance, a step of the instances resets every one (R240, R260). -/
theorem clusterStep_of_rst {insts : Cluster} {x : State} (k : Nat) (hx : x ∈ insts) (hrst : x.port.rst = true) :
    clusterStep k insts = .next (insts.map resetOp) :=
  if_pos (List.any_eq_true.2 ⟨x, hx, hrst⟩)

/-- Instances of one build share its `LUT_INIT` once they are reset (R32). -/
theorem clusterShares_map_resetOp {p : Params} {tbl : Memory} {insts : Cluster}
    (hshares : clusterShares p tbl insts) : clusterShares p (loadTable p.lutInit) (insts.map resetOp) := by
  intro t ht
  obtain ⟨s, hs, rfl⟩ := List.mem_map.1 ht
  obtain ⟨rfl, -⟩ := hshares s hs
  exact ⟨resetOp_params s, resetOp_table s⟩

/-- Instances that start are copies of the block that `boot` builds (R240). -/
theorem clusterReset_of_boot {p : Params} {s : State} (n : ℕ+) (hboot : boot p = .next s) :
    clusterReset p n = .next (List.replicate n s) := by
  rw [clusterReset, hboot, andThen_next]

/-- Parameters that `boot` refuses are refused for several instances (R149). -/
theorem clusterReset_of_boot_refused {p : Params} {r : Refusal} (n : ℕ+) (hboot : boot p = .refused r) :
    clusterReset p n = .refused r := by
  rw [clusterReset, hboot, andThen]

/-- Settles O55: a reset maps RESET over the instances, and the start replicates the block that `boot` answers. -/
theorem instancesResetTogether : Obligations.InstancesResetTogether := by
  unfold Obligations.InstancesResetTogether
  refine ⟨fun insts k x hx hrst => ⟨_, clusterStep_of_rst k hx hrst, List.length_map .., fun j s hj => ?_,
    fun p tbl hshares => clusterShares_map_resetOp hshares⟩, fun p n => ?_⟩
  · refine ⟨resetOp s, by rw [List.getElem?_map, hj, Option.map_some], ?_⟩
    simp [tableIsLutInit]
  · obtain ⟨hgood, hbad⟩ := bootRefusesTablesThatFailTheConditions p
    refine ⟨fun hp => ?_, fun hp => clusterReset_of_boot_refused n (hbad hp)⟩
    obtain ⟨hboot, hparams, htable⟩ := hgood hp
    have hmem : ∀ s ∈ List.replicate n (State.resetWith p), s = State.resetWith p :=
      fun s => List.eq_of_mem_replicate
    refine ⟨_, clusterReset_of_boot n hboot, List.length_replicate, ?_, fun s hs => ?_, fun s hs => ?_⟩
    · rw [List.length_replicate]
      exact n.pos
    · rw [hmem s hs, hboot]
    · rw [hmem s hs]
      exact ⟨hparams, htable⟩

end Sys2Proof.Machine
end

section
/-! RESET and the handshake (spec/70_reset_and_hazards.md R260 to R264): what one step does under its guard, and how
long a DECODE stays in flight. -/

namespace Sys2Proof.Machine

/-- Settles O37: the step is RESET, whose frame is one lemma per field. -/
theorem resetStepGivesResetValues : Obligations.ResetStepGivesResetValues := by
  unfold Obligations.ResetStepGivesResetValues
  intro s hrst
  refine ⟨resetOp s, step_of_rst hrst, rfl, loadedTableReadsAsLutInit s.params, rfl, rfl, rfl, rfl, fun i => ?_,
    rfl, rfl, rfl⟩
  rw [resetOp_capByte]
  exact Vector.getElem_replicate i.isLt

/-- Settles O53. -/
theorem resetTransactionGivesReset : Obligations.ResetTransactionGivesReset := transact_reset

/-- While a DECODE is in flight its captured inputs stand still (R33, R262). -/
theorem step_keeps_capture_of_busy {s : State} (hrst : s.port.rst = false) (hbusy : s.busy = true) :
    ∃ t, step s = .next t ∧ t.capLen = s.capLen ∧ t.capByte = s.capByte := by
  by_cases hcount : s.countdown = 0
  · exact ⟨_, step_of_countdown_zero hrst hbusy hcount, rfl, rfl⟩
  · obtain ⟨-, -, -, -, -, -, hlen, hbyte, -⟩ := advanceSelector_keeps s
    exact ⟨_, step_of_countdown_pos hrst hbusy hcount, hlen, hbyte⟩

theorem acceptEnabled_eq_false {s : State} (h : s.ready = false ∨ s.port.req = false) :
    acceptEnabled s = false := by
  rcases h with h | h <;> simp [acceptEnabled, h]

/-- Settles O38: the step is ACCEPT, or nothing, or a move of the DECODE in flight. -/
theorem acceptCapturesOnlyWhenEnabled : Obligations.AcceptCapturesOnlyWhenEnabled := by
  unfold Obligations.AcceptCapturesOnlyWhenEnabled
  refine ⟨fun s hrst hready hbusy hreq => ⟨_, step_of_accept hrst hready hbusy hreq, ?_⟩,
    fun s hrst hbusy hnot => step_of_not_enabled hrst hbusy (acceptEnabled_eq_false hnot),
    fun s hrst hbusy => step_keeps_capture_of_busy hrst hbusy⟩
  simp

/-- Settles O39. -/
theorem completeWritesDecodeOfTheCapture : Obligations.CompleteWritesDecodeOfTheCapture := by
  unfold Obligations.CompleteWritesDecodeOfTheCapture
  intro s hrst hbusy hcount
  refine ⟨_, step_of_countdown_zero hrst hbusy hcount, ?_⟩
  simp

/-- Where a busy block fetches nothing, only a step of LATENCY passes (log entry 3). -/
theorem step_of_fetched_none {s : State} (hrst : s.port.rst = false) (hbusy : s.busy = true)
    (hfetched : fetched s = none) : step s = .next (tickOp s) := by
  simp [step, hrst, hbusy, hfetched]

/-- Settles O40. -/
theorem stepRunsTheFetchedInstruction : Obligations.StepRunsTheFetchedInstruction := by
  unfold Obligations.StepRunsTheFetchedInstruction
  exact ⟨fun s i hrst hbusy hfetched => step_runs hrst hbusy hfetched,
    fun s hrst hbusy hfetched => step_of_fetched_none hrst hbusy hfetched⟩

/-- As long as LATENCY lasts, a DECODE stays in flight and RES keeps its old value (R263). -/
theorem runBusy_stays_busy (n : Nat) : ∀ {s : State}, s.port.rst = false → s.busy = true → n ≤ s.countdown →
    ∃ t, runBusy n s = .next t ∧ t.busy = true ∧ t.res = s.res := by
  induction n with
  | zero => exact fun {s} _ hbusy _ => ⟨s, rfl, hbusy, rfl⟩
  | succ n ih =>
    intro s hrst hbusy hle
    obtain ⟨-, -, -, hbusy', -, hres', -, -, hport', hcount'⟩ := advanceSelector_keeps s
    rw [runBusy_succ_of_step hbusy (step_of_countdown_pos hrst hbusy (by omega))]
    obtain ⟨t, ht, htbusy, htres⟩ :=
      ih (s := advanceSelector s) (by rw [hport', hrst]) (hbusy'.trans hbusy) (by omega)
    exact ⟨t, ht, htbusy, htres.trans hres'⟩

/-- Settles O50: a selector's step takes one off the count, and the step at 0 is COMPLETE. -/
theorem decodeInFlightCompletes : Obligations.DecodeInFlightCompletes := by
  unfold Obligations.DecodeInFlightCompletes
  refine ⟨fun s hrst hready hbusy hreq => ⟨_, step_of_accept hrst hready hbusy hreq, rfl⟩, fun s hrst hbusy =>
    ⟨fun n hle => runBusy_stays_busy n hrst hbusy hle, ?_⟩⟩
  obtain ⟨t, hfinish, hcomp⟩ := finish_completes hrst hbusy
  exact ⟨t, hfinish, hcomp.busy, hcomp.valid, hcomp.res, hcomp.params, hcomp.table, hcomp.ready, hcomp.port⟩

end Sys2Proof.Machine
end

section
/-! Which results a host may trust (spec/70_reset_and_hazards.md R270, R272). -/

namespace Sys2Proof.Machine

theorem currentResult_eq_some_iff (s : State) (r : Result) :
    currentResult s = some r ↔ s.valid = true ∧ s.res = r := by
  simp [currentResult]

theorem currentResult_eq_none_iff (s : State) : currentResult s = none ↔ s.valid = false := by
  simp [currentResult]

theorem trustedMeasurement_of_current_none {s : State} (h : currentResult s = none) :
    trustedMeasurement s = none := by
  rw [trustedMeasurement, h]

/-- A trusted measurement is that of a current result with status OK (R272). -/
theorem trustedMeasurement_eq_some_iff (s : State) (m : Measurement) :
    trustedMeasurement s = some m ↔ ∃ r, currentResult s = some r ∧ r.status = .ok ∧ r.meas = m := by
  cases hcur : currentResult s with
  | none => simp [trustedMeasurement_of_current_none hcur]
  | some r => simp [trustedMeasurement, hcur]

/-- Settles O60: ACCEPT clears `valid`, and RES is current only with `valid`. -/
theorem onlyCurrentOkResultsAreTrusted : Obligations.OnlyCurrentOkResultsAreTrusted := by
  unfold Obligations.OnlyCurrentOkResultsAreTrusted
  refine ⟨fun s hrst hready hbusy hreq => ?_, fun s m => ?_⟩
  · have hnone : currentResult (acceptOp s.port.inLen s.port.inByte s) = none :=
      (currentResult_eq_none_iff _).2 (acceptOp_valid ..)
    exact ⟨_, step_of_accept hrst hready hbusy hreq, hnone, trustedMeasurement_of_current_none hnone⟩
  · simp [trustedMeasurement_eq_some_iff, currentResult_eq_some_iff, and_assoc]

end Sys2Proof.Machine
end
